-- ==== Sys2Proof/Word.lean ====
section
/-! DEFINITION. The word types of the PM-432 and the plain arithmetic of scan indices. -/
namespace Sys2Proof

/-- A byte on DATA or in the EEPROM image (chapter 11). -/
abbrev Byte := BitVec 8

/-- A 32-bit word of the register window (chapter 11). -/
abbrev Word := BitVec 32

/-- A scan index: 24 bits, $FFFFFF being followed by $000000 (R3, R11). -/
abbrev Scan := BitVec 24

/-- A node id, 0 to 31. -/
abbrev NodeId := Fin 32

/-- A set of node ids as the register words show it: bit k is 1 when id k is in the set (R175). -/
abbrev NodeSet := BitVec 32

/-- A slot number of the merge table, 0 to 7 (R62). -/
abbrev Slot := Fin 8

/-- A channel number, 0 to 3. -/
abbrev Channel := Fin 4

/-- A sample: a signed whole number, W bits wide where the committed WIDTH is W (R90, R136). -/
abbrev Sample := Int

/-- A raw value: the W bits clocked from an SDATA line in one capture, as a number of 0 to 2^W − 1 (R133). -/
abbrev RawValue := BitVec 24

/-- The levels of SDATA0 to SDATA3, true for high (chapter 8). -/
abbrev SdataLevels := Vector Bool 4

/-- The forward distance from index `a` to index `b`, (b − a) mod 2^24 (R11). -/
def Scan.forward (a b : Scan) : Nat := (b - a).toNat

/-- Half the range of scan indices, the distance of a tie (R11). -/
def Scan.tieDistance : Nat := 8388608

end Sys2Proof
end

