-- ==== Sys2Proof/Config.lean ====
section
/-! DEFINITION. What is fixed for the part or for one node: the free values that the manual leaves open, the names of
the 23 parameters of R148, and the fixed times and sizes the rules name. -/
namespace Sys2Proof

/-- FREE VALUE (assumption log 1). Whether index `b` counts as ahead of index `a` when the two are exactly half the
range apart and no node id is attached to the comparison. R11 gives no result there (it says the case does not arise),
but the scans of a ROSTER frame may take any value (R117), so a frame can bring it about. -/
opaque Config.tieAheadWithoutNode : Scan → Scan → Bool

/-- FREE VALUE (assumption log 31). The level of HSDO in the data phase of a write, by the address and the data bits
sampled so far: R161 states HSDO's level in every other phase of a transaction and is silent on this one. -/
opaque Config.hsdoInWrite : BitVec 7 → List Bool → Bool

/-- FREE VALUE (assumption log 33). The level of EDO outside the instruction and the address of the image read, by the
ECK cycles of the read: R150 states what is sent on EDO in the first 24 cycles and is silent on the rest. -/
opaque Config.edoUnstated : Nat → Bool

/-- FREE VALUE (assumption log 33). The level of ECK outside the image read, by the ECK cycles of the last read: R150 states
how ECK runs while the read does and is silent on its level at rest. -/
opaque Config.eckUnstated : Nat → Bool

/-- The 23 numbered parameters of the configuration, in the order of their numbers (R148). -/
inductive Param where
  | nodeId | channels | width | coding | bitRate | scanPeriod | sampleTimeout | closeLag | missLimit
  | rosterInterval | joinLead | listenTimeout | stallLimit | holdQuanta | queueHigh | queueLow
  | win0Start | win0Range | win1Start | win1Range | win2Start | win2Range | autoJoin
  deriving DecidableEq, Repr

/-- The parameter's place in a set of 23 values, its number less one (R148). -/
def Param.index : Param → Fin 23
  | .nodeId => 0 | .channels => 1 | .width => 2 | .coding => 3 | .bitRate => 4 | .scanPeriod => 5
  | .sampleTimeout => 6 | .closeLag => 7 | .missLimit => 8 | .rosterInterval => 9 | .joinLead => 10
  | .listenTimeout => 11 | .stallLimit => 12 | .holdQuanta => 13 | .queueHigh => 14 | .queueLow => 15
  | .win0Start => 16 | .win0Range => 17 | .win1Start => 18 | .win1Range => 19 | .win2Start => 20
  | .win2Range => 21 | .autoJoin => 22

/-- The parameter's number, 1 to 23 (R148). -/
def Param.number (p : Param) : Nat := p.index.val + 1

/-- The parameters in ascending order of their numbers (R148). -/
def Param.all : List Param :=
  [.nodeId, .channels, .width, .coding, .bitRate, .scanPeriod, .sampleTimeout, .closeLag, .missLimit,
   .rosterInterval, .joinLead, .listenTimeout, .stallLimit, .holdQuanta, .queueHigh, .queueLow,
   .win0Start, .win0Range, .win1Start, .win1Range, .win2Start, .win2Range, .autoJoin]

/-- One value for each parameter, each a whole number from 0 to 2^32 − 1 (the written and the committed set). -/
abbrev ParamSet := Vector Word 23

/-- The value a set gives a parameter. -/
def ParamSet.value (ps : ParamSet) (p : Param) : Word := ps[p.index]

/-- The guard time after a boundary, in µs (R4). -/
def Config.guardTime : Nat := 2
/-- The length of the CONVERT pulse, in µs (R132). -/
def Config.convertPulse : Nat := 1
/-- The pulses of SCLK in a µs, at 8 MHz (R133). -/
def Config.sclkPerMicrosecond : Nat := 8
/-- One hold quantum, in µs (R31). -/
def Config.holdQuantum : Nat := 100
/-- Frames the inbound buffer holds (R120). -/
def Config.inboundRoom : Nat := 4
/-- SCAN frames the transmit list holds (R121). -/
def Config.scanRoom : Nat := 4
/-- The attempt number at which a frame is abandoned (R126, R127). -/
def Config.lastAttempt : Nat := 8
/-- The bytes after the start delimiter in which a collision is an early one (R126). -/
def Config.earlyBytes : Nat := 8

end Sys2Proof
end

