-- ==== Sys2Proof/Syntax.lean ====
section
/-! DEFINITION. The commands of the block: one constructor of Instr for each row of spec/opcode_table.json. The table
gives no operands; an operand here is what the event brings from outside the part (a byte string, a word the host
writes, a level) or the order in which blocks take one event where the manual allows either order. -/
namespace Sys2Proof

/-- The order in which the blocks take one boundary (R3), which the manual leaves open: the sender says it (log 5). The
Array Control Unit takes the boundary before or after each other block (R51, R57, R144); the Merge Unit before or after
the Roster Unit (R3, R22); the Roster Unit takes the deadline reports before or after the Merge Unit reads eligibility
(R64), and before or after it takes the boundary itself (R28); and an identity conflict's refusal comes before or after
this boundary's guard expiry (R4, R50). All false: SPC, MU, RU, ACU, the reports and the guard expiry later. -/
structure BoundaryOrder where
  /-- The ACU takes the boundary before the SPC does. -/
  acuBeforeSpc : Bool := false
  /-- The ACU takes the boundary before the MU does. -/
  acuBeforeMu : Bool := false
  /-- The ACU takes the boundary before the RU does. -/
  acuBeforeRu : Bool := false
  /-- The RU takes the boundary before the MU does. -/
  ruBeforeMu : Bool := false
  /-- The RU takes the deadline reports before the MU opens the new entry (R64). -/
  reportsFirst : Bool := false
  /-- The RU takes the deadline reports waiting for it before it takes the boundary (R28). -/
  reportsBeforeRu : Bool := false
  /-- In JOINING with a refusal pending, the guard expiry comes before the ACU's transition (R4, R50). -/
  guardFirst : Bool := false
  deriving DecidableEq, Repr

/-- The commands, one for each row of the table of operations and events. -/
inductive Instr where
  /-- PIN_RESET (R40): `cfgsrc` is the level of the CFGSRC strap at that moment. -/
  | pinReset (cfgsrc : Bool)
  /-- SOFT_RESET (R129, R167): `cfgsrc` is the level of CFGSRC, read at once if the reset takes effect at once. -/
  | softReset (cfgsrc : Bool)
  /-- SOFT_RESET_TAKES_EFFECT (R129): `cfgsrc` as for PIN_RESET. -/
  | softResetTakesEffect (cfgsrc : Bool)
  /-- BOUNDARY (R3): the filtered level of GATE goes high, or is high in the wait phase. -/
  | boundary (order : BoundaryOrder)
  /-- GUARD_EXPIRY (R4). -/
  | guardExpiry
  /-- SCAN_PERIOD_EXPIRY (R14). -/
  | scanPeriodExpiry
  /-- GATE_FAULT (R9): GATE reads high while the node pulls it low. -/
  | gateFault
  /-- SOLO_BOUNDARY (R10). -/
  | soloBoundary
  /-- STALL_TIMER_EXPIRY (R16, R17). -/
  | stallTimerExpiry
  /-- LISTEN_TIMER_EXPIRY (R46): `gateFell` says that GATE fell low between the ACU's reading and the STU's (R49). -/
  | listenTimerExpiry (gateFell : Bool)
  /-- ROSTER_TAKEN (R23): the RU takes the oldest buffered frame, a ROSTER. -/
  | rosterTaken
  /-- HOLD_TAKEN (R30): the RU takes the oldest buffered frame, a HOLD. -/
  | holdTaken
  /-- HOLD_COUNTDOWN_EXPIRY (R31): the hold field of node `k` reaches zero. -/
  | holdCountdownExpiry (k : NodeId)
  /-- MISS_REPORT (R28): the RU takes the oldest deadline report not yet taken. -/
  | missReport
  /-- RENEWAL_EXPIRY (R105). -/
  | renewalExpiry
  /-- FREEZE_CHANGE (R102): the filtered level of FREEZE becomes `high`. -/
  | freezeChange (high : Bool)
  /-- SCAN_FRAME_TAKEN (R68): the MU takes the oldest buffered frame, a SCAN. -/
  | scanFrameTaken
  /-- RECEIVED_FRAME_END (R117): a received carrier ends; `bytes` are the whole bytes after the start delimiter. -/
  | receivedFrameEnd (bytes : List Byte)
  /-- ACCESS_WAIT_COMPLETE (R124). -/
  | accessWaitComplete
  /-- TX_SUCCESS (R125). -/
  | txSuccess
  /-- COLLISION (R126): the line differs in the start delimiter (`atByte` 0) or in byte number `atByte`, from 1. -/
  | collision (atByte : Nat)
  /-- JAM_END (R126): `lineBusy` says that another node still drives DATA when this node's jam ends. -/
  | jamEnd (lineBusy : Bool)
  /-- BACKOFF_END (R126). -/
  | backoffEnd
  /-- CONVERT_PULSE_END (R132). -/
  | convertPulseEnd
  /-- CHANNEL_READY (R133): the SDATA line of channel `c` goes low. -/
  | channelReady (c : Channel)
  /-- CAPTURE_COMPLETE (R133): the W-th pulse of SCLK; `sdata` are the levels of the SDATA lines at the pulses that the
  SPC has still to drive, the next one first, and then those after the burst; beyond the end of the list the lines stay as
  they are. -/
  | captureComplete (sdata : List SdataLevels)
  /-- SAMPLE_TIMEOUT (R134). -/
  | sampleTimeout
  /-- CALIBRATE (R139). -/
  | calibrate
  /-- JOIN (R60). -/
  | join
  /-- LEAVE (R61). -/
  | leave
  /-- RELEASE_RECORD (R91). -/
  | releaseRecord
  /-- FLUSH_RECORDS (R92). -/
  | flushRecords
  /-- SUSPEND_RECORDS (R94). -/
  | suspendRecords
  /-- RESUME_RECORDS (R94). -/
  | resumeRecords
  /-- COMMIT_CONFIG (R156). -/
  | commitConfig
  /-- UNKNOWN_COMMAND (R165): a COMMAND word that names no command. -/
  | unknownCommand (code : Word)
  /-- IMAGE_READ_END (R154): the image read ends, its bytes being those clocked in (R150); `edi` is the level that EDI has
  once ECS is high, when the memory has let it go. -/
  | imageReadEnd (edi : Bool)
  /-- PARAM_VALUE_WRITE (R155). -/
  | paramValueWrite (value : Word)
  /-- RECORD_DATA_READ (R89). -/
  | recordDataRead
  /-- RECORD_POINTER_WRITE (R88). -/
  | recordPointerWrite (value : Word)
  /-- PROJ_DESC_WRITE (R97). -/
  | projDescWrite (value : Word)
  /-- MEMBER_SEL_WRITE (R38). -/
  | memberSelWrite (value : Word)
  /-- MEMBER_VIEW_READ (R164): a read of member view word `word`; word 0 is the first. -/
  | memberViewRead (word : Fin 4)
  /-- MERGE_SEL_WRITE (R83). -/
  | mergeSelWrite (value : Word)
  /-- MERGE_VIEW_READ (R164): a read of merge view word `word`; word 0 is the first. -/
  | mergeViewRead (word : Fin 4)
  /-- EVENTS_WRITE (R168). -/
  | eventsWrite (value : Word)
  /-- EVENT_MASK_WRITE (R170). -/
  | eventMaskWrite (value : Word)
  /-- STAT_VALUE_WRITE (R172). -/
  | statValueWrite (value : Word)
  /-- REGISTER_WRITE (R162, R175): a host write of `value` at word address `address`. -/
  | registerWrite (address : BitVec 7) (value : Word)
  /-- GATE_LOW (R1): the filtered level of GATE falls low. -/
  | gateLow
  /-- CARRIER_START (R116): a transition on a quiet DATA line that this node does not drive. -/
  | carrierStart
  /-- LINE_IDLE (R116): 2 bit times have passed without a transition. -/
  | lineIdle
  /-- RESETN_RELEASE (R162): RESETn rises. -/
  | resetnRelease
  deriving DecidableEq, Repr

end Sys2Proof
end

