-- ==== Sys2Proof/WellFormed.lean ====
section
/-! DEFINITION. Which commands are the rows' own: the operands a row's event can bring. The machine gives every
command a meaning, the ill-formed ones too; this check says which of them a sender that keeps to the table sends. -/
namespace Sys2Proof

/-- A COMMAND word names a command when it is 1 to 9 (chapter 11). -/
def knownCommand (code : Word) : Bool := 1 ≤ code.toNat && code.toNat ≤ 9

/-- The word addresses whose write has a row of its own (chapter 11, R162). -/
def hasOwnWriteRow (address : BitVec 7) : Bool :=
  [0x02#7, 0x03#7, 0x04#7, 0x07#7, 0x08#7, 0x0A#7, 0x0E#7, 0x0F#7, 0x14#7].contains address

/-- The operands are ones the row's event can bring: an unknown code names no command (R165); a plain register write
is to no word with a row of its own (R162); a collision is seen within the longest frame, 175 bytes (R115); a burst has at most 24
pulses of SCLK (R133, R148), and the lines have levels after it. -/
def Instr.wellFormed : Instr → Bool
  | .unknownCommand code => !knownCommand code
  | .registerWrite address _ => !hasOwnWriteRow address
  | .collision atByte => decide (atByte ≤ 175)
  | .captureComplete sdata => decide (sdata.length ≤ 25)
  | _ => true

end Sys2Proof
end

