-- ==== Sys2Proof/Decode.lean ====
section
/-! DEFINITION. The command that a word spells by the table's bits. No row of spec/opcode_table.json gives bits (each
row's "fields" is empty and none has "fixed" bits), so no word spells a command. -/
namespace Sys2Proof

/-- The command the table's bits spell: none, since no row gives bits. -/
def decodeTableWord (_nbits _w : Nat) : Option Instr := none

end Sys2Proof
end

