-- ==== Sys2Proof/Machine/Types.lean ====
section
/-! DEFINITION. The parts State is built of: one structure for each unit of the block diagram (00_scope.md), the
frames, the records and the codes, each named as its chapter names it. -/
namespace Sys2Proof.Machine

/-- A timer of the part; `running` holds the µs since its last restart. Only the stall timer is ever paused (R15). -/
inductive Timer where
  | stopped | running (us : Nat) | paused | expired
  deriving DecidableEq, Repr

/-! ### Scan timing (chapter 1) -/

/-- The two phases of RELEASED. -/
inductive ReleasePhase where
  | wait | guard
  deriving DecidableEq, Repr

/-- The gate driver state (chapter 1). -/
inductive GateDriver where
  | detached | observing | holding | released (phase : ReleasePhase)
  deriving DecidableEq, Repr

/-- The take request: clear; asked since the last boundary; or due, set before the last boundary (R4, R5). -/
inductive TakeRequest where
  | clear | asked | due
  deriving DecidableEq, Repr

/-- The Scan Timing Unit. -/
structure Stu where
  gate : GateDriver
  gateHigh : Bool
  faultSeen : Bool
  guard : Timer
  take : TakeRequest
  index : Scan
  period : Timer
  formed : Bool
  stall : Timer
  stallFlag : Bool
  solo : Bool
  soloMade : Bool
  time : Word
  boundaryTime : Word
  startSerial : Nat
  deriving DecidableEq, Repr

/-! ### Member table (chapter 2) -/

/-- The state of a member entry with the scan numbers it has (chapter 2, the field table). -/
inductive Membership where
  | absent
  | pending (fromScan : Scan)
  | active (fromScan : Scan)
  | departing (fromScan : Scan) (untilScan : Scan)
  deriving DecidableEq, Repr

/-- One entry of the member table. `holdPhase` counts the µs since the hold field was set or last fell (R31). -/
structure Member where
  membership : Membership := .absent
  missCount : BitVec 4 := 0
  hold : BitVec 16 := 0
  holdPhase : Nat := 0
  lastHeard : Option Scan := none
  deriving DecidableEq, Repr

/-- A deadline report (R75): the expected and the present set of a PARTIAL close. -/
structure MissReport where
  expected : NodeSet
  present : NodeSet
  deriving DecidableEq, Repr

/-- The Roster Unit. -/
structure Ru where
  members : Vector Member 32
  selector : NodeId
  reports : List MissReport
  deriving DecidableEq, Repr

/-! ### Contributions, entries and records (chapters 4 and 5) -/

/-- One node's part of one scan; the channel count is the number of samples. -/
structure Contribution where
  node : NodeId
  cal : Bool := false
  fault : Bool := false
  ovr : Bool := false
  samples : List Sample := []
  deriving DecidableEq, Repr

/-- An OPEN entry of the merge table (chapter 4). The contributions stand in ascending order of node id. -/
structure Entry where
  scan : Scan
  expected : NodeSet
  present : NodeSet
  contributions : List Contribution
  openTime : Word
  deriving DecidableEq, Repr

/-- The Merge Unit. A slot is FREE (none) or OPEN (some entry). -/
structure Mu where
  slots : Vector (Option Entry) 8
  current : Option Slot
  suspended : Bool
  selector : Slot
  deriving DecidableEq, Repr

/-- The close kinds COMPLETE, PARTIAL, REALIGNED and FLUSHED (R79). -/
inductive CloseKind where
  | complete | partialClose | realigned | flushed
  deriving DecidableEq, Repr

/-- A record (R79). Its first missing id, counts and length are functions of these fields. -/
structure Record where
  scan : Scan
  kind : CloseKind
  expected : NodeSet
  present : NodeSet
  openTime : Word
  closeTime : Word
  contributions : List Contribution
  deriving DecidableEq, Repr

/-- The Record Unit. The queue count is the length of the queue (R86). -/
structure Rcu where
  queue : List Record
  pointer : BitVec 8
  projFirst : BitVec 7
  projCount : BitVec 6
  backlog : Bool
  deriving DecidableEq, Repr

/-! ### Hold Controller (chapter 6) -/

/-- The Hold Controller. -/
structure Hc where
  backlogReason : Bool
  freezeReason : Bool
  selfHold : Bool
  renewal : Timer
  requested : BitVec 16
  lastSent : BitVec 16
  deriving DecidableEq, Repr

/-! ### Frames and the bus controller (chapter 7) -/

/-- The state code of a ROSTER list entry (chapter 11). -/
inductive RosterState where
  | pending | active | departing
  deriving DecidableEq, Repr

/-- One entry of a ROSTER's list. -/
structure RosterEntry where
  id : NodeId
  state : RosterState
  scan : Scan
  deriving DecidableEq, Repr

/-- A ROSTER frame. -/
structure Roster where
  sender : NodeId
  join : Bool
  leave : Bool
  currentScan : Scan
  announced : Scan
  digest : BitVec 16
  list : List RosterEntry
  deriving DecidableEq, Repr

/-- A SCAN frame; the sender is the contribution's node. -/
structure ScanFrame where
  index : Scan
  contribution : Contribution
  deriving DecidableEq, Repr

/-- A frame, of one of the three kinds (R115). -/
inductive Frame where
  | scan (f : ScanFrame)
  | roster (r : Roster)
  | hold (sender : NodeId) (quanta : BitVec 16)
  deriving DecidableEq, Repr

/-- The checks of R117 a received frame can fail. -/
inductive RxError where
  | fragment | oversize | crcError | malformed
  deriving DecidableEq, Repr

/-- The line state (chapter 7): OFF, or the committed bit rate in Mbit/s with carrier present or absent. -/
inductive Line where
  | off | on (mbit : Nat) (carrier : Bool)
  deriving DecidableEq, Repr

/-- The receiver state (chapter 7). -/
inductive Receiver where
  | off | seeking | ready | receiving | blind
  deriving DecidableEq, Repr

/-- The transmitter state (chapter 7). -/
inductive Transmitter where
  | off | idle | accessWait | sending | jamming | backoff
  deriving DecidableEq, Repr

/-- What every item of the transmit list carries (R121). -/
structure Item where
  attempt : Nat := 0
  deferred : Bool := false
  deriving DecidableEq, Repr

/-- A SCAN frame in the transmit list. -/
structure ScanItem where
  item : Item
  frame : ScanFrame
  deriving DecidableEq, Repr

/-- The frame in transmission. `givenUp` is set when it is abandoned at the end of its jam (R127), and `overlapped` when
another node's carrier has begun under this node's own (R116). -/
structure InTx where
  item : Item
  frame : Frame
  delta : Scan
  givenUp : Bool
  overlapped : Bool
  deriving DecidableEq, Repr

/-- The Bus Access Controller. -/
structure Bac where
  line : Line
  receiver : Receiver
  transmitter : Transmitter
  inbound : List Frame
  holdItem : Option Item
  rosterItem : Option Item
  scanItems : List ScanItem
  inTx : Option InTx
  busyMark : Bool
  backoff : Nat
  resetPending : Bool
  idleTime : Nat
  phaseTime : Nat
  deriving DecidableEq, Repr

/-! ### Sample port (chapter 8) -/

/-- The capture state. -/
inductive CaptureState where
  | idle | strobe | waiting | clocking
  deriving DecidableEq, Repr

/-- The three capture starts (R132). -/
inductive StartKind where
  | boundary | solo | founding
  deriving DecidableEq, Repr

/-- The capture tag: which capture start began the capture and the calibration count it carries (R132). -/
structure CaptureTag where
  kind : StartKind
  serial : Nat
  count : Option Nat
  deriving DecidableEq, Repr

/-- One row of the correction table: an offset and a gain G standing for G / 65,536. -/
structure Correction where
  offset : Int
  gain : Nat
  deriving DecidableEq, Repr

/-- The calibration phase (R140). -/
inductive CalPhase where
  | idle | zeroSettle | zeroAccum | refSettle | refAccum | evaluate
  deriving DecidableEq, Repr

/-- The cause of a FAIL (R142, R143). -/
inductive CalCause where
  | fault | offset | gain
  deriving DecidableEq, Repr

/-- The calibration result. -/
inductive CalResult where
  | none | pass | fail (cause : CalCause) (channel : Channel) | aborted
  deriving DecidableEq, Repr

/-- The INSEL state. -/
inductive Insel where
  | normal | zero | reference
  deriving DecidableEq, Repr

/-- The two accumulators of a channel (R141). -/
structure Sums where
  zero : Int
  reference : Int
  deriving DecidableEq, Repr

/-- The Sample Port and Correction Unit. `sdata` holds the present levels of the SDATA lines, which are inputs, `clocked`
the levels taken from them at the pulses of SCLK of the burst in progress, the first pulse first, and `clockTime` the µs
since the burst began (R133). -/
structure Spc where
  capture : CaptureState
  tag : Option CaptureTag
  ready : Vector Bool 4
  sdata : SdataLevels
  clocked : List SdataLevels
  clockTime : Nat
  raw : Vector (Option RawValue) 4
  table : Vector Correction 4
  phase : CalPhase
  count : Nat
  sums : Vector Sums 4
  result : CalResult
  insel : Insel
  elapsed : Nat
  deriving DecidableEq, Repr

/-! ### Configuration Store (chapter 9) -/

/-- The error codes of R153 and UNKNOWN_COMMAND (chapter 11). -/
inductive ErrorCode where
  | none | noImage | badHeader | badLength | badChecksum
  | unknownParam (number : Byte)
  | range (p : Param)
  | cross (p : Param)
  | unknownCommand
  deriving DecidableEq, Repr

/-- The load state. -/
inductive LoadState where
  | empty | reading | committed
  deriving DecidableEq, Repr

/-- The EEPROM port (R150): `edi` is the present level of EDI, an input; `eckHigh` says that ECK is high in the cycle of the
image read in progress; `eckCycles` are the cycles of ECK that have ended; and `bits` are the levels sampled from EDI after
the instruction and the address, the first first. -/
structure EepromPort where
  edi : Bool
  eckHigh : Bool
  eckCycles : Nat
  bits : List Bool
  deriving DecidableEq, Repr

/-- The Configuration Store, with the present level of the CFGSRC strap (R40, R149) and the EEPROM port. -/
structure Cs where
  written : ParamSet
  committed : ParamSet
  digest : BitVec 16
  load : LoadState
  error : ErrorCode
  selector : BitVec 5
  cfgsrc : Bool
  eeprom : EepromPort
  deriving DecidableEq, Repr

/-! ### Host Port Unit (chapter 10) -/

/-- The transaction state (R161), with what the port has sampled. HSELn is low in every state but IDLE; in IDLE it is low
only when it fell, or a pin reset cut a transaction, with RESETn low (R162, R167). DATA is one state for a read, with the
number of bits driven so far, and one for a write, with its address and the data bits sampled so far. A transaction that
may still be a write of PARAM_VALUE keeps what PARAM_SEL held when it began (R167, log 35). -/
inductive Transaction where
  | idle (hselnLow : Bool)
  | address (selector : BitVec 5) (sampled : List Bool)
  | read (driven : Nat)
  | write (selector : BitVec 5) (address : BitVec 7) (sampled : List Bool)
  | done
  deriving DecidableEq, Repr

/-- What happens at a pin and has no row of the table: the edges of HSELn and HSCK, with the level of HSDI at a rising
edge (R161), the level of the CFGSRC strap (R149), a change of the SDATA line of channel `c`, one pulse of SCLK, at which
the SPC takes the levels the SDATA lines have (R133), a change of EDI, and one edge of ECK, at which, when it rises, the CS
samples EDI (R150). -/
inductive PinEvent where
  | hselnFall | hselnRise | hsckRise (hsdi : Bool) | hsckFall | cfgsrc (high : Bool)
  | sdata (c : Channel) (high : Bool) | sclkPulse | edi (high : Bool) | eckEdge
  deriving DecidableEq, Repr

/-- What is seen on HSDO (R161). -/
inductive Hsdo where
  | highZ | driven (level : Bool)
  deriving DecidableEq, Repr

/-- What the node puts on DATA in one bit time: nothing, the start delimiter, which is a pattern that no data bits produce, a
data bit, or the jam (R114, R126). -/
inductive DataOut where
  | released | delimiter | bit (high : Bool) | jam
  deriving DecidableEq, Repr

/-- The fifteen events (chapter 10). -/
inductive Event where
  | recordAvailable | queueHigh | queueLow | joined | left | joinRefused | dropped | memberChange
  | realigned | gateStall | gateFault | calDone | loadDone | configError | idConflict
  deriving DecidableEq, Repr

/-- The twenty-eight statistics counters (chapter 10). -/
inductive Counter where
  | framesRxGood | scanRx | rosterRx | holdRx | rxCrcErr | rxFragment | rxOversize | rxMalformed
  | rxOverrun | digestMismatch | contribAccepted | contribDuplicate | contribUnexpected
  | contribUnlisted | contribLate | recordsComplete | recordsPartial | recordsDiscarded | realigns
  | framesTx | txCollisions | txDeferred | txAbandoned | scanTxDropped | boundaries | gateStalls
  | holdsSent | sampleFaults
  deriving DecidableEq, Repr

/-- The result codes of R166. -/
inductive ResultCode where
  | accepted | wrongState | empty | invalid | pending
  deriving DecidableEq, Repr

/-- The commands of R165, by name. -/
inductive HostCommand where
  | join | leave | calibrate | releaseRecord | flushRecords | suspendRecords | resumeRecords
  | commitConfig | softReset
  deriving DecidableEq, Repr

/-- The item a result answers (R166). -/
inductive Answered where
  | nothing | command (c : HostCommand) | paramWrite | unknown
  deriving DecidableEq, Repr

/-- The command result: a code, the error code with INVALID, and the item answered (R166). -/
structure CommandResult where
  code : ResultCode
  error : ErrorCode
  item : Answered
  deriving DecidableEq, Repr

/-- The statistics mode (R172). -/
inductive StatMode where
  | direct | decrement
  deriving DecidableEq, Repr

/-- The fields of one merge slot as the view shows them (R83): scan index and sets, or none for a FREE slot. -/
structure SlotView where
  fields : Option (Scan × NodeSet × NodeSet)
  isCurrent : Bool
  deriving DecidableEq, Repr

/-- The Host Port Unit. `readWord` is the word a read has captured; `resetnLow` is the level of RESETn. -/
structure Hpu where
  transaction : Transaction
  events : BitVec 15
  mask : BitVec 16
  result : CommandResult
  lastCode : Word
  counters : Vector Word 28
  statSel : BitVec 5
  statMode : StatMode
  memberCopy : Member
  mergeCopy : SlotView
  readWord : Word
  resetnLow : Bool
  deriving DecidableEq, Repr

/-! ### Array Control Unit (chapter 3) -/

/-- The node array state. -/
inductive ArrayState where
  | loading | awaitingConfig | configured | listening | joining | member | leaving
  deriving DecidableEq, Repr

/-- The refusal reason. -/
inductive RefusalReason where
  | none | digest | idConflict
  deriving DecidableEq, Repr

/-- The Array Control Unit. -/
structure Acu where
  state : ArrayState
  joinScan : Option Scan
  leaveScan : Option Scan
  listen : Timer
  admission : Option Roster
  matchingSeen : Bool
  mismatchingSeen : Bool
  refusalPending : Bool
  drain : Bool
  reason : RefusalReason
  deriving DecidableEq, Repr

end Sys2Proof.Machine
end

