-- ==== Sys2Proof/Machine/Operands.lean ====
section
/-! DEFINITION. The forms in which values come in and go out: scan comparison, sets of ids, the CRC, the bytes of a
frame, the EEPROM image, the words of a record and of the register window, parameters and their checks, and the
arithmetic of correction and calibration. Nothing here reads State. -/
namespace Sys2Proof.Machine

/-! ### Scan comparison (R11) -/

/-- R11 with no node id attached: is `b` ahead of `a`? A tie is a free value (log 1). -/
def ahead (a b : Scan) : Bool :=
  let d := Scan.forward a b
  if d = 0 then false
  else if d < Scan.tieDistance then true
  else if d = Scan.tieDistance then Config.tieAheadWithoutNode a b
  else false

/-- R11: `b` is at or behind `a` when it is equal to `a` or behind it. -/
def atOrBehind (a b : Scan) : Bool := !ahead a b

/-- R11: `b` is behind `a` when it is neither equal to `a` nor ahead of it. -/
def behind (a b : Scan) : Bool := atOrBehind a b && (a != b)

/-- R11 with the id `k` of the node whose index `b` is, and this node's own id. -/
def aheadOfNode (own k : NodeId) (a b : Scan) : Bool :=
  let d := Scan.forward a b
  if d = 0 then false
  else if d < Scan.tieDistance then true
  else if d = Scan.tieDistance then decide (own < k)
  else false

/-! ### Sets of node ids (R175) -/

/-- The set {k}. -/
def single (k : NodeId) : NodeSet := 1#32 <<< k.val

/-- Is `k` in the set? -/
def inSet (s : NodeSet) (k : NodeId) : Bool := s.getLsbD k.val

/-- The set with `k` added. -/
def insertId (s : NodeSet) (k : NodeId) : NodeSet := s ||| single k

/-- The set of the ids that satisfy `p`. -/
def setOf (p : NodeId → Bool) : NodeSet :=
  (List.finRange 32).foldl (fun s k => if p k then insertId s k else s) 0

/-- The ids in expected and not in present. -/
def missingSet (expected present : NodeSet) : NodeSet := expected &&& ~~~present

/-- The lowest id of a set, or none (R79, first missing). -/
def lowestId (s : NodeSet) : Option NodeId := (List.finRange 32).find? (inSet s)

/-- The number of ids in a set. -/
def sizeOf (s : NodeSet) : Nat := ((List.finRange 32).filter (inSet s)).length

/-! ### Parameters (R148, R152) -/

/-- The defaults of R148, in the order of the parameter numbers. -/
def paramDefaults : ParamSet :=
  #v[0, 4, 24, 0, 4, 1000, 800, 2, 3, 32, 4, 20, 50, 1000, 24, 8, 0, 0, 0, 0, 0, 0, 0]

/-- The range check of R148. -/
def paramInRange (p : Param) (v : Word) : Bool :=
  let n := v.toNat
  let within := fun lo hi : Nat => decide (lo ≤ n) && decide (n ≤ hi)
  match p with
  | .nodeId => within 0 31
  | .channels => within 1 4
  | .width => [16, 18, 20, 24].contains n
  | .coding => within 0 1
  | .bitRate => [2, 4, 8].contains n
  | .scanPeriod => within 50 65535
  | .sampleTimeout => within 10 65535
  | .closeLag => within 1 7
  | .missLimit => within 1 15
  | .rosterInterval => within 8 255
  | .joinLead => within 2 15
  | .listenTimeout => within 1 255
  | .stallLimit => within 1 255
  | .holdQuanta => within 10 65535
  | .queueHigh => within 2 30
  | .queueLow => within 0 29
  | .win0Start | .win1Start | .win2Start => within 0 31
  | .win0Range | .win1Range | .win2Range => within 0 32
  | .autoJoin => within 0 1

/-- The cross check reported against `p`, when there is one: its two parameters and whether it holds (R148). -/
def crossCheck (ps : ParamSet) : Param → Option (Param × Param × Bool)
  | .queueLow => some (.queueHigh, .queueLow, decide ((ps.value .queueLow).toNat < (ps.value .queueHigh).toNat))
  | .queueHigh =>
    some (.closeLag, .queueHigh, decide ((ps.value .queueHigh).toNat + (ps.value .closeLag).toNat ≤ 31))
  | .win0Range =>
    some (.win0Start, .win0Range, decide ((ps.value .win0Start).toNat + (ps.value .win0Range).toNat ≤ 32))
  | .win1Range =>
    some (.win1Start, .win1Range, decide ((ps.value .win1Start).toNat + (ps.value .win1Range).toNat ≤ 32))
  | .win2Range =>
    some (.win2Start, .win2Range, decide ((ps.value .win2Start).toNat + (ps.value .win2Range).toNat ≤ 32))
  | _ => none

/-- How parameter `p` fails in the set, if it does (R152). -/
def paramFailure (ps : ParamSet) (p : Param) : Option ErrorCode :=
  if !paramInRange p (ps.value p) then some (.range p)
  else match crossCheck ps p with
    | some (a, b, holds) =>
      if paramInRange a (ps.value a) && paramInRange b (ps.value b) && !holds then some (.cross p) else none
    | none => none

/-- R152: the code of the lowest-numbered failing parameter; none when the set is valid. -/
def validate (ps : ParamSet) : Option ErrorCode := Param.all.findSome? (paramFailure ps)

/-- The parameter with the given number, when there is one (R148). -/
def paramOfNumber (n : Nat) : Option Param := if n = 0 then none else Param.all[n - 1]?

/-! ### The CRC and the digest (R115, R157) -/

/-- One bit of the CRC register's shift, for the polynomial x^16 + x^12 + x^5 + 1. -/
def crcShift (c : BitVec 16) : BitVec 16 :=
  if c.msb then (c <<< 1) ^^^ 0x1021#16 else c <<< 1

/-- The CRC register after one more byte, taken most significant bit first. -/
def crcByte (c : BitVec 16) (b : Byte) : BitVec 16 :=
  Nat.repeat crcShift 8 (c ^^^ (b.setWidth 16 <<< 8))

/-- The CRC of R115: the register starts at $FFFF, with no final inversion. -/
def crc16 (bytes : List Byte) : BitVec 16 := bytes.foldl crcByte 0xFFFF#16

/-- The high byte and the low byte of a 16-bit value. -/
def bytes16 (v : BitVec 16) : List Byte := [v.extractLsb' 8 8, v.extractLsb' 0 8]

/-- The three bytes of a 24-bit value, most significant first. -/
def bytes24 (v : BitVec 24) : List Byte := [v.extractLsb' 16 8, v.extractLsb' 8 8, v.extractLsb' 0 8]

/-- The byte at a place of a byte string, $00 beyond its end. -/
def byteAt (bs : List Byte) (i : Nat) : Byte := bs.getD i 0

/-- The 16-bit value at a place, high byte first. -/
def word16At (bs : List Byte) (i : Nat) : BitVec 16 := byteAt bs i ++ byteAt bs (i + 1)

/-- The 24-bit value at a place, most significant byte first. -/
def word24At (bs : List Byte) (i : Nat) : BitVec 24 := byteAt bs i ++ byteAt bs (i + 1) ++ byteAt bs (i + 2)

/-- The six array-wide parameters, in the order the digest takes them (R157). -/
def digestParams : List Param := [.width, .bitRate, .closeLag, .missLimit, .rosterInterval, .joinLead]

/-- The digest of a set (R157). -/
def digestOf (ps : ParamSet) : BitVec 16 :=
  crc16 (digestParams.flatMap fun p => bytes16 ((ps.value p).setWidth 16))

/-! ### Frames on DATA (R115, R117, R174) -/

/-- The sample carried by three bytes: their low W bits, taken as a signed number (R174). -/
def sampleOfBits (w : Nat) (v : BitVec 24) : Sample := (v.setWidth w).toInt

/-- The samples of a SCAN body, three bytes each, channel 0 first. -/
def parseSamples (w : Nat) : Nat → List Byte → List Sample
  | 0, _ => []
  | n + 1, bs => sampleOfBits w (word24At bs 0) :: parseSamples w n (bs.drop 3)

/-- The node id of a byte, when it is 0 to 31. -/
def nodeOfByte (b : Byte) : Option NodeId := if h : b.toNat < 32 then some ⟨b.toNat, h⟩ else none

/-- The state named by a list entry's state code (chapter 11). -/
def rosterStateOfByte (b : Byte) : Option RosterState :=
  if b = 1 then some .pending else if b = 2 then some .active else if b = 3 then some .departing else none

/-- The list of a ROSTER body: `n` entries of five bytes; none when an id or a state code is not one (R117). -/
def parseList : Nat → List Byte → Option (List RosterEntry)
  | 0, _ => some []
  | n + 1, bs =>
    match nodeOfByte (byteAt bs 0), rosterStateOfByte (byteAt bs 1), parseList n (bs.drop 5) with
    | some k, some st, some rest => some (⟨k, st, word24At bs 2⟩ :: rest)
    | _, _, _ => none

/-- The ids of a list stand in strictly ascending order (R117). -/
def ascendingIds : List NodeId → Bool
  | a :: b :: rest => decide (a < b) && ascendingIds (b :: rest)
  | _ => true

/-- The SCAN frame of a byte string whose length is `n`, by the conditions of R117. -/
def parseScan (w : Nat) (bs : List Byte) (n : Nat) (sender : NodeId) : Option Frame :=
  let flags := byteAt bs 6
  let cal := flags.getLsbD 0
  let fault := flags.getLsbD 1
  let count := (byteAt bs 7).toNat
  if 4 < count then none
  else if n ≠ 10 + 3 * count then none
  else if (count = 0 ∧ (cal || fault) = false) ∨ (count ≠ 0 ∧ (cal || fault) = true) then none
  else some (.scan ⟨word24At bs 3, ⟨sender, cal, fault, flags.getLsbD 2, parseSamples w count (bs.drop 8)⟩⟩)

/-- The ROSTER frame of a byte string whose length is `n`, by the conditions of R117. -/
def parseRoster (bs : List Byte) (n : Nat) (sender : NodeId) : Option Frame :=
  let flags := byteAt bs 3
  let count := (byteAt bs 12).toNat
  if n ≠ 15 + 5 * count then none
  else match parseList count (bs.drop 13) with
    | none => none
    | some list =>
      if ascendingIds (list.map (·.id)) then
        some (.roster ⟨sender, flags.getLsbD 0, flags.getLsbD 1, word24At bs 4, word24At bs 7, word16At bs 10, list⟩)
      else none

/-- The frame of a byte string that has passed its CRC, or none when it is malformed (R117). -/
def parseFrame (w : Nat) (bs : List Byte) : Option Frame :=
  let n := bs.length
  if (byteAt bs 2).toNat ≠ n then none
  else match nodeOfByte (byteAt bs 1) with
    | none => none
    | some sender =>
      if byteAt bs 0 = 0x53#8 then parseScan w bs n sender
      else if byteAt bs 0 = 0x52#8 then parseRoster bs n sender
      else if byteAt bs 0 = 0x48#8 then
        if n = 7 then some (.hold sender (word16At bs 3)) else none
      else none

/-- The checks of R117 in their order, on the whole bytes of a received frame; `w` is the committed WIDTH. -/
def checkFrame (w : Nat) (bs : List Byte) : Except RxError Frame :=
  let n := bs.length
  if n < 7 then .error .fragment
  else if 175 < n then .error .oversize
  else if crc16 (bs.take (n - 2)) ≠ word16At bs (n - 2) then .error .crcError
  else match parseFrame w bs with
    | none => .error .malformed
    | some f => .ok f

/-- The node that sent a frame. -/
def Frame.sender : Frame → NodeId
  | .scan f => f.contribution.node
  | .roster r => r.sender
  | .hold k _ => k

/-- The total length of a frame in bytes (R115). -/
def Frame.length : Frame → Nat
  | .scan f => 10 + 3 * f.contribution.samples.length
  | .roster r => 15 + 5 * r.list.length
  | .hold _ _ => 7

/-- The state code of a list entry. -/
def RosterState.code : RosterState → Byte
  | .pending => 1 | .active => 2 | .departing => 3

/-- The five bytes of a list entry. -/
def RosterEntry.bytes (e : RosterEntry) : List Byte :=
  [BitVec.ofNat 8 e.id.val, e.state.code] ++ bytes24 e.scan

/-- A bit of a flags byte. -/
def flagBit (b : Bool) (i : Nat) : Byte := if b then 1#8 <<< i else 0

/-- The kind byte of a frame (R115). -/
def Frame.kindByte : Frame → Byte
  | .scan _ => 0x53 | .roster _ => 0x52 | .hold _ _ => 0x48

/-- The body of a frame, between the length byte and the CRC (chapter 11, R174). -/
def Frame.body : Frame → List Byte
  | .scan f =>
    let c := f.contribution
    bytes24 f.index ++ [flagBit c.cal 0 ||| flagBit c.fault 1 ||| flagBit c.ovr 2, BitVec.ofNat 8 c.samples.length]
      ++ c.samples.flatMap fun x => bytes24 (BitVec.ofInt 24 x)
  | .roster r =>
    [flagBit r.join 0 ||| flagBit r.leave 1] ++ bytes24 r.currentScan ++ bytes24 r.announced ++ bytes16 r.digest
      ++ [BitVec.ofNat 8 r.list.length] ++ r.list.flatMap RosterEntry.bytes
  | .hold _ q => bytes16 q

/-- The bytes of a frame as the BAC sends them, from the kind byte to the last CRC byte (R115, R174). -/
def Frame.encode (f : Frame) : List Byte :=
  let covered := [f.kindByte, BitVec.ofNat 8 f.sender.val, BitVec.ofNat 8 f.length] ++ f.body
  covered ++ bytes16 (crc16 covered)

/-- The bit times one attempt of a frame lasts: 16 of start delimiter and 8 for each byte (R114). -/
def Frame.bitTimes (f : Frame) : Nat := 16 + 8 * f.length

/-- Bit `i` of a byte string that is sent with every byte most significant bit first (R150, R174). -/
def bitSent (bytes : List Byte) (i : Nat) : Bool := (byteAt bytes (i / 8)).getMsbD (i % 8)

/-- What an attempt of a frame puts on DATA in bit time `n` of it, from 0: 16 bit times of start delimiter, then the frame's
bytes one after another, every byte most significant bit first, and then nothing (R114, R174). -/
def Frame.inBitTime (f : Frame) (n : Nat) : DataOut :=
  if n < 16 then .delimiter
  else if n < f.bitTimes then .bit (bitSent f.encode (n - 16))
  else .released

/-- The values a sample of `w` bits takes (R136). -/
def sampleFits (w : Nat) (x : Sample) : Bool :=
  decide (-(2 ^ (w - 1) : Int) ≤ x) && decide (x ≤ (2 ^ (w - 1) : Int) - 1)

/-- A frame this part can form and take whole: R115's lengths and R117's conditions hold of it. -/
def Frame.wellFormed (w : Nat) : Frame → Bool
  | .scan f =>
    let c := f.contribution
    decide (c.samples.length ≤ 4) && (decide (c.samples.length = 0) == (c.cal || c.fault))
      && c.samples.all (sampleFits w)
  | .roster r => decide (r.list.length ≤ 32) && ascendingIds (r.list.map (·.id))
  | .hold _ _ => true

/-! ### Bits sampled one by one (R133, R150, R161) -/

/-- The number whose bits were sampled, most significant bit first. -/
def ofBits (bits : List Bool) : Nat := bits.foldl (fun n b => 2 * n + b.toNat) 0

/-- The whole bytes of a bit string, each sent most significant bit first (R150). -/
def bytesOfBits (bits : List Bool) : List Byte :=
  (List.range (bits.length / 8)).map fun i => BitVec.ofNat 8 (ofBits ((bits.drop (8 * i)).take 8))

/-! ### The EEPROM image (R150, R151) -/

/-- The image byte at a place: $FF where the memory drives nothing (R150). -/
def imageByte (image : List Byte) (i : Nat) : Byte := image.getD i 0xFF

/-- The first `n` image bytes. -/
def imageBytes (image : List Byte) (n : Nat) : List Byte := (List.range n).map (imageByte image)

/-- The records of an image: parameter number and value, in image order (chapter 11). -/
def imageRecords (image : List Byte) : List (Byte × BitVec 16) :=
  (List.range (imageByte image 1).toNat).map fun i =>
    (imageByte image (2 + 3 * i), imageByte image (3 + 3 * i) ++ imageByte image (4 + 3 * i))

/-- The five checks of R151 in their order: the records of a good image, or the error code. -/
def checkImage (image : List Byte) : Except ErrorCode (List (Byte × BitVec 16)) :=
  let n := (imageByte image 1).toNat
  if imageByte image 0 = 0xFF ∧ imageByte image 1 = 0xFF then .error .noImage
  else if imageByte image 0 ≠ 0xA5 then .error .badHeader
  else if n = 0 ∨ 30 < n then .error .badLength
  else if crc16 (imageBytes image (2 + 3 * n)) ≠ imageByte image (2 + 3 * n) ++ imageByte image (3 + 3 * n) then
    .error .badChecksum
  else match (imageRecords image).find? fun r => (paramOfNumber r.1.toNat).isNone with
    | some r => .error (.unknownParam r.1)
    | none => .ok (imageRecords image)

/-- The image bytes the CS clocks in: two, and, where the checks on these two pass, the n records and the two CRC bytes
(R150). -/
def imageLength (image : List Byte) : Nat :=
  let n := (imageByte image 1).toNat
  if imageByte image 0 = 0xA5 ∧ 1 ≤ n ∧ n ≤ 30 then 2 + (3 * n + 2) else 2

/-- The bytes the CS sends on EDO, most significant bit first: the read instruction and the address $0000 (R150). -/
def edoBytes : List Byte := [0x03, 0x00, 0x00]

/-- The ECK cycles of the whole read: 8 for each byte sent and for each byte clocked in (R150). -/
def imageReadCycles (image : List Byte) : Nat := 8 * edoBytes.length + 8 * imageLength image

/-- The image bytes clocked in from EDI so far (R150). -/
def EepromPort.image (p : EepromPort) : List Byte := bytesOfBits p.bits

/-- R150: has the last cycle of the read ended? With the first two bytes in, they say how many bytes there are. -/
def EepromPort.readOver (p : EepromPort) : Bool := !p.eckHigh && decide (imageReadCycles p.image ≤ p.eckCycles)

/-- R150: ECK rises: EDI is sampled, and after the instruction and the address the level is the next bit of the image. -/
def EepromPort.eckRises (p : EepromPort) : EepromPort :=
  { p with eckHigh := true, bits := if p.eckCycles < 8 * edoBytes.length then p.bits else p.bits ++ [p.edi] }

/-- R150: ECK falls: the cycle ends, and EDO changes after it. -/
def EepromPort.eckFalls (p : EepromPort) : EepromPort := { p with eckHigh := false, eckCycles := p.eckCycles + 1 }

/-- R150: the next edge of ECK, of which there is none once the read is over. -/
def EepromPort.eckEdge (p : EepromPort) : EepromPort :=
  if p.readOver then p else if p.eckHigh then p.eckFalls else p.eckRises

/-- R149, R150: the port as the CS begins a read, or with none to begin, ECK low; the level of EDI is an input and stays as it
is. -/
def EepromPort.afterReset (edi : Bool) : EepromPort := ⟨edi, false, 0, []⟩

/-- The loaded set: the defaults, with the records taken in image order (R151). -/
def loadedSet (records : List (Byte × BitVec 16)) : ParamSet :=
  records.foldl (fun ps r =>
    match paramOfNumber r.1.toNat with
    | some p => ps.set p.index (r.2.setWidth 32)
    | none => ps) paramDefaults

/-! ### Records (R79, R176, chapter 11) -/

/-- The lowest missing id of a record, or none (R79). -/
def Record.firstMissing (r : Record) : Option NodeId := lowestId (missingSet r.expected r.present)

/-- The number of missing ids of a record (R79). -/
def Record.missingCount (r : Record) : Nat := sizeOf (missingSet r.expected r.present)

/-- The contribution count of a record: the number of ids in the present set (R79). -/
def Record.contributionCount (r : Record) : Nat := sizeOf r.present

/-- The record length in words (R176): 6, and 1 plus its channel count for each contribution. -/
def Record.lengthInWords (r : Record) : Nat := 6 + (r.contributions.map fun c => 1 + c.samples.length).sum

/-- The code of a close kind (chapter 11). -/
def CloseKind.code : CloseKind → Nat
  | .complete => 0 | .partialClose => 1 | .realigned => 2 | .flushed => 3

/-- A field of a register word: a value placed with its lowest bit at bit `i`. -/
def field (v i : Nat) : Word := BitVec.ofNat 32 v <<< i

/-- A one-bit field of a register word. -/
def bitField (b : Bool) (i : Nat) : Word := field b.toNat i

/-- A sample as it is read: the stored value sign-extended to 32 bits (R90). -/
def sampleWord (x : Sample) : Word := BitVec.ofInt 32 x

/-- The header word of a contribution (chapter 11). -/
def Contribution.header (c : Contribution) : Word :=
  field c.node.val 0 ||| bitField c.cal 8 ||| bitField c.fault 9 ||| bitField c.ovr 10 ||| field c.samples.length 16

/-- The words of a record, in the order of chapter 11 (R176). -/
def Record.words (r : Record) : List Word :=
  [ r.scan.setWidth 32 ||| field r.kind.code 24 ||| field r.contributionCount 26,
    r.expected,
    r.present,
    field (match r.firstMissing with | some k => k.val | none => 0xFF) 0 ||| field r.missingCount 8
      ||| field r.lengthInWords 24,
    r.openTime,
    r.closeTime ] ++ r.contributions.flatMap fun c => c.header :: c.samples.map sampleWord

/-- The record word at a position: 0 at or beyond the record's end (R89). -/
def Record.wordAt (r : Record) (position : Nat) : Word := r.words.getD position 0

/-- The contribution of a node in a list kept by id. -/
def findContribution (cs : List Contribution) (k : NodeId) : Option Contribution := cs.find? (·.node == k)

/-- A contribution put in its place, in ascending order of node id (R79). -/
def insertContribution (c : Contribution) : List Contribution → List Contribution
  | [] => [c]
  | d :: rest => if c.node < d.node then c :: d :: rest else d :: insertContribution c rest

/-- The projection sample of a record at slot `i` under the descriptor (p, n), by the table of R98; none in every row
but the last. -/
def projectionSample (r : Record) (p n i : Nat) : Option Sample :=
  let q := p + i
  if n ≤ i ∨ 128 ≤ q then none
  else if h : q / 4 < 32 then
    let k : NodeId := ⟨q / 4, h⟩
    if !inSet r.present k then none
    else match findContribution r.contributions k with
      | none => none
      | some c => if c.cal || c.fault then none else c.samples[q % 4]?
  else none

/-! ### Codes of the register window (chapter 11) -/

/-- The 16-bit error code: the class in bits 7 to 0, the number in bits 15 to 8. -/
def ErrorCode.word : ErrorCode → Word
  | .none => 0
  | .noImage => 1
  | .badHeader => 2
  | .badLength => 3
  | .badChecksum => 4
  | .unknownParam n => field 5 0 ||| field n.toNat 8
  | .range p => field 6 0 ||| field p.number 8
  | .cross p => field 7 0 ||| field p.number 8
  | .unknownCommand => 8

/-- The result code of CMD_RESULT. -/
def ResultCode.code : ResultCode → Nat
  | .accepted => 0 | .wrongState => 1 | .empty => 2 | .invalid => 3 | .pending => 4

/-- The code of a command (COMMAND). -/
def HostCommand.code : HostCommand → Nat
  | .join => 1 | .leave => 2 | .calibrate => 3 | .releaseRecord => 4 | .flushRecords => 5
  | .suspendRecords => 6 | .resumeRecords => 7 | .commitConfig => 8 | .softReset => 9

/-- The command a COMMAND word names, when it names one. -/
def commandOfWord (code : Word) : Option HostCommand :=
  match code.toNat with
  | 1 => some .join | 2 => some .leave | 3 => some .calibrate | 4 => some .releaseRecord
  | 5 => some .flushRecords | 6 => some .suspendRecords | 7 => some .resumeRecords
  | 8 => some .commitConfig | 9 => some .softReset | _ => none

/-- The item-answered field of CMD_RESULT. -/
def Answered.code : Answered → Nat
  | .nothing => 0 | .command c => c.code | .paramWrite => 0xFE | .unknown => 0xFF

/-- The CMD_RESULT word; the error code shows with INVALID alone. -/
def CommandResult.word (r : CommandResult) : Word :=
  field r.code.code 0 ||| field r.item.code 8 ||| (if r.code = .invalid then r.error.word <<< 16 else 0)

/-- A scan field of a view word: $FFFFFFFF for none (R175). -/
def scanWord : Option Scan → Word
  | none => 0xFFFFFFFF
  | some s => s.setWidth 32

/-- The member state code of member view word 0. -/
def Membership.code : Membership → Nat
  | .absent => 0 | .pending _ => 1 | .active _ => 2 | .departing _ _ => 3

/-- The from scan of an entry, where it has one. -/
def Membership.fromScan? : Membership → Option Scan
  | .absent => none | .pending f => some f | .active f => some f | .departing f _ => some f

/-- The until scan of an entry, where it has one. -/
def Membership.untilScan? : Membership → Option Scan
  | .departing _ u => some u
  | _ => none

/-- Is the entry ABSENT? -/
def Membership.isAbsent : Membership → Bool
  | .absent => true
  | _ => false

/-- The member view words (chapter 11), of the selected id and the copy of its entry. -/
def memberViewWord (own selected : NodeId) (m : Member) : Fin 4 → Word
  | 0 => field m.membership.code 0 ||| bitField (selected == own) 2 ||| field selected.val 3
          ||| field m.missCount.toNat 8 ||| field m.hold.toNat 16
  | 1 => scanWord m.membership.fromScan?
  | 2 => scanWord m.membership.untilScan?
  | 3 => scanWord m.lastHeard

/-- The merge view words (chapter 11), of the selected slot and its copy. -/
def mergeViewWord (selected : Slot) (v : SlotView) : Fin 4 → Word
  | 0 => bitField v.fields.isSome 0 ||| bitField v.isCurrent 1 ||| field selected.val 2
  | 1 => scanWord (v.fields.map (·.1))
  | 2 => match v.fields with | some f => f.2.1 | none => 0
  | 3 => match v.fields with | some f => f.2.2 | none => 0

/-- The node array state code of STATE. -/
def ArrayState.code : ArrayState → Nat
  | .loading => 0 | .awaitingConfig => 1 | .configured => 2 | .listening => 3 | .joining => 4
  | .member => 5 | .leaving => 6

/-- The refusal reason code of STATE. -/
def RefusalReason.code : RefusalReason → Nat
  | .none => 0 | .digest => 1 | .idConflict => 2

/-- The gate driver code of STATE: RELEASED for both phases. -/
def GateDriver.code : GateDriver → Nat
  | .detached => 0 | .observing => 1 | .holding => 2 | .released _ => 3

/-- The calibration phase code of STATE. -/
def CalPhase.code : CalPhase → Nat
  | .idle => 0 | .zeroSettle => 1 | .zeroAccum => 2 | .refSettle => 3 | .refAccum => 4 | .evaluate => 5

/-- The calibration result code of STATE. -/
def CalResult.code : CalResult → Nat
  | .none => 0 | .pass => 1 | .fail _ _ => 2 | .aborted => 3

/-- The cause field of STATE. -/
def CalResult.causeCode : CalResult → Nat
  | .fail .fault _ => 1 | .fail .offset _ => 2 | .fail .gain _ => 3 | _ => 0

/-- The failing channel field of STATE. -/
def CalResult.channelCode : CalResult → Nat
  | .fail _ c => c.val
  | _ => 0

/-! ### Correction and calibration arithmetic (R135, R136, R142) -/

/-- The quotient n / d rounded to the nearest whole number, halves away from zero (`d` above 0). -/
def roundHalfAway (n : Int) (d : Nat) : Int :=
  if 0 ≤ n then (2 * n + d) / (2 * d) else -((2 * (-n) + d) / (2 * d))

/-- The levels of the SDATA lines at the next `n` pulses of SCLK: `now` are the present levels, and `coming` those at the
pulses one by one; where `coming` ends, the lines stay as they are (R133). -/
def levelsAtPulses : Nat → SdataLevels → List SdataLevels → List SdataLevels
  | 0, _, _ => []
  | n + 1, now, [] => now :: levelsAtPulses n now []
  | n + 1, _, next :: rest => next :: levelsAtPulses n next rest

/-- R133: the raw value of channel `c` after a burst: the bits of its line at the first `w` pulses, most significant bit
first. -/
def rawOfPulses (w : Nat) (pulses : List SdataLevels) (c : Channel) : RawValue :=
  BitVec.ofNat 24 (ofBits ((pulses.take w).map fun levels => levels[c]))

/-- The coded value of a raw value of `w` bits (R135). -/
def codedValue (w coding : Nat) (raw : RawValue) : Int :=
  let v := raw.setWidth w
  if coding = 1 then (v ^^^ (BitVec.twoPow w (w - 1))).toInt else v.toInt

/-- The corrected value and whether it saturated (R136). -/
def correctedValue (w : Nat) (c : Correction) (x : Int) : Int × Bool :=
  let low : Int := -(2 ^ (w - 1) : Int)
  let high : Int := (2 ^ (w - 1) : Int) - 1
  let r := roundHalfAway ((x - c.offset) * c.gain) 65536
  if r < low then (low, true) else if high < r then (high, true) else (r, false)

/-- The target of the reference measurement, 99/100 of full scale with the remainder dropped (R142). -/
def calTarget (w : Nat) : Int := (99 * ((2 ^ (w - 1) : Int) - 1)).tdiv 100

/-- The evaluation of one channel's sums: the correction it passes with, or the cause it fails with (R142). -/
def evaluateChannel (w : Nat) (sums : Sums) : Except CalCause Correction :=
  let o := sums.zero.tdiv 16
  let r := sums.reference.tdiv 16
  let span := r - o
  if (2 ^ (w - 1) : Nat) / 8 < o.natAbs then .error .offset
  else if span ≤ 0 then .error .gain
  else
    let g := (roundHalfAway (calTarget w * 65536) span.toNat).toNat
    if 32769 ≤ g ∧ g ≤ 131071 then .ok ⟨o, g⟩ else .error .gain

/-- The backoff of R126 in slots: (3 × own id + 5 × a) mod 32. -/
def backoffSlots (own : NodeId) (attempt : Nat) : Nat := (3 * own.val + 5 * attempt) % 32

/-- Is `n` a scheduled boundary of node `own`: (N + 7 × own id) mod ROSTER_INTERVAL is 0 (R34)? -/
def rosterScheduled (n : Scan) (own : NodeId) (interval : Nat) : Bool :=
  decide ((n.toNat + 7 * own.val) % interval = 0)

end Sys2Proof.Machine
end

