-- ==== Sys2Proof/Machine/ResetValues.lean ====
section
/-! DEFINITION. The reset value of each unit's state, from the reset rule of its chapter (R19, R39, R40, R84, R101,
R112, R131, R147, R160, R173). What a reset leaves alone, an input pin's level or a host transaction, is an argument. -/
namespace Sys2Proof.Machine

/-- R19. The level of the GATE line is an input and stays as it is. -/
def Stu.afterReset (gateHigh : Bool) : Stu where
  gate := .detached
  gateHigh := gateHigh
  faultSeen := false
  guard := .stopped
  take := .clear
  index := 0
  period := .stopped
  formed := false
  stall := .stopped
  stallFlag := false
  solo := false
  soloMade := false
  time := 0
  boundaryTime := 0
  startSerial := 0

/-- R39: an entry after reset, and after each move to ABSENT (R22, R26, R29). -/
def Member.absentEntry : Member := {}

/-- R39. -/
def Ru.afterReset : Ru where
  members := Vector.replicate 32 Member.absentEntry
  selector := 0
  reports := []

/-- R84. -/
def Mu.afterReset : Mu where
  slots := Vector.replicate 8 none
  current := none
  suspended := false
  selector := 0

/-- R101. -/
def Rcu.afterReset : Rcu where
  queue := []
  pointer := 0
  projFirst := 0
  projCount := 0
  backlog := false

/-- R112. The freeze reason is the filtered level of FREEZE. -/
def Hc.afterReset (freeze : Bool) : Hc where
  backlogReason := false
  freezeReason := freeze
  selfHold := false
  renewal := .stopped
  requested := 0
  lastSent := 0

/-- R131. -/
def Bac.afterReset : Bac where
  line := .off
  receiver := .off
  transmitter := .off
  inbound := []
  holdItem := none
  rosterItem := none
  scanItems := []
  inTx := none
  busyMark := false
  backoff := 0
  resetPending := false
  idleTime := 0
  phaseTime := 0

/-- R147 and the table at the head of chapter 8. The levels of the SDATA lines are inputs and stay as they are. -/
def Spc.afterReset (sdata : SdataLevels) : Spc where
  capture := .idle
  tag := none
  ready := Vector.replicate 4 false
  sdata := sdata
  clocked := []
  clockTime := 0
  raw := Vector.replicate 4 none
  table := Vector.replicate 4 ⟨0, 65536⟩
  phase := .idle
  count := 0
  sums := Vector.replicate 4 ⟨0, 0⟩
  result := .none
  insel := .normal
  elapsed := 0

/-- R149 and R160: the load state is READING at once when CFGSRC is high, and the image read begins from its first bit (R150). -/
def Cs.afterReset (cfgsrc edi : Bool) : Cs where
  written := paramDefaults
  committed := paramDefaults
  digest := digestOf paramDefaults
  load := if cfgsrc then .reading else .empty
  error := .none
  selector := 0
  cfgsrc := cfgsrc
  eeprom := EepromPort.afterReset edi

/-- The command result after reset: ACCEPTED, no code, no item (R166, R173). -/
def CommandResult.afterReset : CommandResult := ⟨.accepted, .none, .nothing⟩

/-- The merge view of a FREE slot that is not the current entry. -/
def SlotView.afterReset : SlotView := ⟨none, false⟩

/-- R173. The transaction state, the captured read word and the level of RESETn depend on the kind of reset (R167). -/
def Hpu.afterReset (transaction : Transaction) (readWord : Word) (resetnLow : Bool) : Hpu where
  transaction := transaction
  events := 0
  mask := 0
  result := CommandResult.afterReset
  lastCode := 0
  counters := Vector.replicate 28 0
  statSel := 0
  statMode := .direct
  memberCopy := Member.absentEntry
  mergeCopy := SlotView.afterReset
  readWord := readWord
  resetnLow := resetnLow

/-- R40: LOADING when CFGSRC is high, AWAITING_CONFIG when it is low. -/
def Acu.afterReset (cfgsrc : Bool) : Acu where
  state := if cfgsrc then .loading else .awaitingConfig
  joinScan := none
  leaveScan := none
  listen := .stopped
  admission := none
  matchingSeen := false
  mismatchingSeen := false
  refusalPending := false
  drain := false
  reason := .none

end Sys2Proof.Machine
end

