-- ==== Sys2Proof/Machine/State.lean ====
section
/-! DEFINITION. The state of the part, unit by unit, with the two queues of what waits to be taken; the state after reset; and
the reasons for which a step could stop. -/
namespace Sys2Proof.Machine

/-- The whole state of one PM-432: the ten units of the block diagram, the queue of waiting commands (log 20) and the
queue of waiting pin changes that have no row (log 32). -/
structure State where
  stu : Stu
  ru : Ru
  mu : Mu
  rcu : Rcu
  hc : Hc
  bac : Bac
  spc : Spc
  cs : Cs
  hpu : Hpu
  acu : Acu
  pending : List Instr
  pins : List PinEvent
  deriving DecidableEq, Repr

/-! ### One update for each unit -/

/-- The state with the STU replaced. -/
def State.withStu (s : State) (x : Stu) : State := { s with stu := x }
/-- The state with the RU replaced. -/
def State.withRu (s : State) (x : Ru) : State := { s with ru := x }
/-- The state with the MU replaced. -/
def State.withMu (s : State) (x : Mu) : State := { s with mu := x }
/-- The state with the RCU replaced. -/
def State.withRcu (s : State) (x : Rcu) : State := { s with rcu := x }
/-- The state with the HC replaced. -/
def State.withHc (s : State) (x : Hc) : State := { s with hc := x }
/-- The state with the BAC replaced. -/
def State.withBac (s : State) (x : Bac) : State := { s with bac := x }
/-- The state with the SPC replaced. -/
def State.withSpc (s : State) (x : Spc) : State := { s with spc := x }
/-- The state with the CS replaced. -/
def State.withCs (s : State) (x : Cs) : State := { s with cs := x }
/-- The state with the HPU replaced. -/
def State.withHpu (s : State) (x : Hpu) : State := { s with hpu := x }
/-- The state with the ACU replaced. -/
def State.withAcu (s : State) (x : Acu) : State := { s with acu := x }
/-- The state with the queue of waiting commands replaced. -/
def State.withPending (s : State) (x : List Instr) : State := { s with pending := x }

/-- The state with the queue of waiting pin changes replaced. -/
def State.withPins (s : State) (x : List PinEvent) : State := { s with pins := x }

/-- The machine right after reset (R19, R39, R40, R84, R101, R112, R131, R147, R160, R173), with CFGSRC low, FREEZE
low, GATE high, the SDATA lines high, EDI high (its pull-up, R150), HSELn high and RESETn released: the levels of the inputs are a DESIGN CHOICE (log 6).
No command and no pin change waits (log 20, log 32). -/
def State.reset : State where
  stu := Stu.afterReset true
  ru := Ru.afterReset
  mu := Mu.afterReset
  rcu := Rcu.afterReset
  hc := Hc.afterReset false
  bac := Bac.afterReset
  spc := Spc.afterReset (Vector.replicate 4 true)
  cs := Cs.afterReset false true
  hpu := Hpu.afterReset (.idle false) 0 false
  acu := Acu.afterReset false
  pending := []
  pins := []

/-- The faults of the part: none. Nothing in the manual stops the part; a refused command is answered in CMD_RESULT
(R166) and a bad frame is counted and dropped (R117). So no command raises a fault. -/
inductive Fault where
  deriving DecidableEq, Repr

/-- The refusals. -/
inductive Refusal where
  /-- Raised by exec's own arms for a command that has no meaning yet (safe: the model stops where the part goes on).
  Every command has its meaning, so no arm raises it. -/
  | notModelled (mnemonic : String)
  deriving DecidableEq, Repr

/-- What a command answers. -/
abbrev Answer := Host.Outcome State Fault Refusal

end Sys2Proof.Machine
end

