-- ==== Sys2Proof/Machine/Flags.lean ====
section
/-! DEFINITION. The flags and counts of the Host Port Unit: the fifteen sticky events, the twenty-eight statistics
counters, the STAT_HALF level and the interrupt line (R168 to R172). -/
namespace Sys2Proof.Machine

/-- The position of an event in EVENTS and EVENT_MASK (chapter 11). -/
def Event.position : Event → Nat
  | .recordAvailable => 0 | .queueHigh => 1 | .queueLow => 2 | .joined => 3 | .left => 4
  | .joinRefused => 5 | .dropped => 6 | .memberChange => 7 | .realigned => 8 | .gateStall => 9
  | .gateFault => 10 | .calDone => 11 | .loadDone => 12 | .configError => 13 | .idConflict => 14

/-- R168: a raise sets the event's flag; a set flag stays set. -/
def raiseEvent (e : Event) (s : State) : State :=
  s.withHpu { s.hpu with events := s.hpu.events ||| (1#15 <<< e.position) }

/-- Is the event's flag set? -/
def State.eventSet (s : State) (e : Event) : Bool := s.hpu.events.getLsbD e.position

/-- The index of a counter (chapter 10). -/
def Counter.index : Counter → Fin 28
  | .framesRxGood => 0 | .scanRx => 1 | .rosterRx => 2 | .holdRx => 3 | .rxCrcErr => 4
  | .rxFragment => 5 | .rxOversize => 6 | .rxMalformed => 7 | .rxOverrun => 8
  | .digestMismatch => 9 | .contribAccepted => 10 | .contribDuplicate => 11
  | .contribUnexpected => 12 | .contribUnlisted => 13 | .contribLate => 14
  | .recordsComplete => 15 | .recordsPartial => 16 | .recordsDiscarded => 17 | .realigns => 18
  | .framesTx => 19 | .txCollisions => 20 | .txDeferred => 21 | .txAbandoned => 22
  | .scanTxDropped => 23 | .boundaries => 24 | .gateStalls => 25 | .holdsSent => 26
  | .sampleFaults => 27

/-- The value of a counter. -/
def State.counter (s : State) (c : Counter) : Word := s.hpu.counters[c.index]

/-- R171: a counted event advances its counter by one, 2^32 − 1 being followed by 0. -/
def countOne (c : Counter) (s : State) : State :=
  s.withHpu { s.hpu with counters := s.hpu.counters.set c.index (s.hpu.counters[c.index] + 1) }

/-- R169: STAT_HALF is on while any counter holds 2^31 or more. -/
def State.statHalf (s : State) : Bool := s.hpu.counters.toList.any (·.msb)

/-- The EVENTS word: the 15 flags and the STAT_HALF level in bit 15 (R168, chapter 11). -/
def State.eventsWord (s : State) : Word := s.hpu.events.setWidth 32 ||| bitField s.statHalf 15

/-- R170: HIRQ is driven low while a set flag, or STAT_HALF, has its mask indication on. -/
def State.hirqLow (s : State) : Bool := (s.eventsWord &&& s.hpu.mask.setWidth 32) != 0

/-- R168: a write of EVENTS clears each flag whose position is written 1; position 15 has no effect. -/
def clearEvents (value : Word) (s : State) : State :=
  s.withHpu { s.hpu with events := s.hpu.events &&& ~~~(value.setWidth 15) }

/-- R170: a write of EVENT_MASK sets all 16 indications. -/
def setEventMask (value : Word) (s : State) : State := s.withHpu { s.hpu with mask := value.setWidth 16 }

/-- R172: the value a write of STAT_VALUE leaves in the selected counter. -/
def statWritten (mode : StatMode) (c value : Word) : Word :=
  match mode with
  | .direct => value
  | .decrement => if value.toNat ≤ c.toNat then c - value else 0

/-- R172: a write of STAT_VALUE acts on the selected counter, and is ignored with STAT_SEL at 28 to 31. -/
def writeStatValue (value : Word) (s : State) : State :=
  if h : s.hpu.statSel.toNat < 28 then
    s.withHpu { s.hpu with
      counters := s.hpu.counters.set s.hpu.statSel.toNat
        (statWritten s.hpu.statMode (s.hpu.counters[s.hpu.statSel.toNat]) value) }
  else s

/-- R172: what a read of STAT_VALUE returns. -/
def State.statValue (s : State) : Word :=
  if h : s.hpu.statSel.toNat < 28 then s.hpu.counters[s.hpu.statSel.toNat] else 0

end Sys2Proof.Machine
end

