-- ==== Sys2Proof/Machine/Ops.lean ====
section
/-! DEFINITION. The operations the commands share, unit by unit: each is one thing a rule says a unit does, and each
changes State only where its rule says so. No operation touches the queue of waiting commands. -/
namespace Sys2Proof.Machine

/-! ### The committed configuration (R158) -/

/-- The committed value of a parameter. -/
def State.param (s : State) (p : Param) : Nat := (s.cs.committed.value p).toNat

/-- The own id, the committed NODE_ID (R148). -/
def State.ownId (s : State) : NodeId := ⟨s.param .nodeId % 32, Nat.mod_lt _ (by decide)⟩

/-- Is channel `c` enabled, one of channels 0 to CHANNELS − 1? -/
def State.enabled (s : State) (c : Channel) : Bool := decide (c.val < s.param .channels)

/-- Does an enabled node window cover `k`, or is no window enabled (R65)? -/
def State.inWindows (s : State) (k : NodeId) : Bool :=
  let covers := fun start range => decide (s.param start ≤ k.val) && decide (k.val < s.param start + s.param range)
  let off := fun range => decide (s.param range = 0)
  (off .win0Range && off .win1Range && off .win2Range)
    || covers .win0Start .win0Range || covers .win1Start .win1Range || covers .win2Start .win2Range

/-! ### The member table: reading it (R20, R32) -/

/-- The entry of node `k`. -/
def State.member (s : State) (k : NodeId) : Member := s.ru.members[k]

/-- R20: is a node with this entry eligible for scan `n`? -/
def Membership.eligible (m : Membership) (n : Scan) : Bool :=
  match m with
  | .absent => false
  | .pending fromScan => atOrBehind n fromScan
  | .active _ => true
  | .departing fromScan untilScan => behind untilScan n && (untilScan != fromScan)

/-- R20: is node `k` eligible for scan `n`? -/
def State.eligible (s : State) (k : NodeId) (n : Scan) : Bool := (s.member k).membership.eligible n

/-- Is this node eligible for the current index? -/
def State.selfEligible (s : State) : Bool := s.eligible s.ownId s.stu.index

/-- Does some node id satisfy `p`? -/
def anyId (p : NodeId → Bool) : Bool := (List.finRange 32).any p

/-- R32: the level that is on while any hold field is nonzero. -/
def State.anyHold (s : State) : Bool := anyId fun k => (s.member k).hold != 0

/-- Is the ACU in JOINING, MEMBER or LEAVING? -/
def ArrayState.inArray : ArrayState → Bool
  | .joining | .member | .leaving => true
  | _ => false

/-! ### The scan gate: release and stall timing (R7, R15) -/

/-- R15: the stall timer restarted from zero: it runs if every hold field is zero, and is paused otherwise. -/
def State.restartedStall (s : State) : Timer := if s.anyHold then .paused else .running 0

/-- R7: the STU lets GATE go and enters the wait phase, where the stall timer is restarted (R15). -/
def releaseGate (s : State) : State :=
  s.withStu { s.stu with gate := .released .wait, stall := s.restartedStall }

/-- R7: the three release conditions, in HOLDING. -/
def State.mayRelease (s : State) : Bool :=
  (s.stu.gate == .holding) && (s.stu.period == .expired) && (!s.selfEligible || s.stu.formed) && !s.hc.selfHold

/-- R7: the test of the release conditions. -/
def testRelease (s : State) : State := if s.mayRelease then releaseGate s else s

/-- R15: a nonzero HOLD has been taken: in the wait phase the stall timer is restarted and paused. -/
def holdTakenSignal (s : State) : State :=
  if s.stu.gate = .released .wait then s.withStu { s.stu with stall := .paused } else s

/-- R15: a hold field has gone to zero: in the wait phase the stall timer is restarted. -/
def holdClearedSignal (s : State) : State :=
  if s.stu.gate = .released .wait then s.withStu { s.stu with stall := s.restartedStall } else s

/-! ### The transmit list (R121, R122, R124) -/

/-- Does the line carry carrier? -/
def Line.carrier : Line → Bool
  | .off => false
  | .on _ c => c

/-- The line with carrier present or absent. -/
def Line.withCarrier (l : Line) (c : Bool) : Line :=
  match l with
  | .off => .off
  | .on mbit _ => .on mbit c

/-- Does the transmit list hold no unsent work? -/
def Bac.listEmpty (b : Bac) : Bool := b.holdItem.isNone && b.rosterItem.isNone && b.scanItems.isEmpty

/-- R124: entering ACCESS_WAIT sets the busy mark by the carrier; with a soft reset pending the transmitter goes to
IDLE instead (R129). -/
def enterAccessWait (s : State) : State :=
  if s.bac.resetPending then s.withBac { s.bac with transmitter := .idle, phaseTime := 0 }
  else s.withBac { s.bac with transmitter := .accessWait, busyMark := s.bac.line.carrier, phaseTime := 0 }

/-- R124: from IDLE the transmitter enters ACCESS_WAIT when an item is placed with no soft reset pending. -/
def wakeTransmitter (s : State) : State :=
  if s.bac.transmitter = .idle ∧ s.bac.resetPending = false then enterAccessWait s else s

/-- R125, R127: after an attempt, ACCESS_WAIT if the list holds work, IDLE if it holds none. -/
def nextAttempt (s : State) : State :=
  if s.bac.listEmpty then s.withBac { s.bac with transmitter := .idle, phaseTime := 0 } else enterAccessWait s

/-- R107, R121: the HC requests a HOLD frame; one unsent request at most stands in the list. -/
def requestHold (s : State) : State :=
  match s.bac.holdItem with
  | some _ => s
  | none => wakeTransmitter (s.withBac { s.bac with holdItem := some {} })

/-- R34, R121: the RU requests a ROSTER frame; one unsent request at most stands in the list. -/
def requestRoster (s : State) : State :=
  match s.bac.rosterItem with
  | some _ => s
  | none => wakeTransmitter (s.withBac { s.bac with rosterItem := some {} })

/-- R34, R121: the RU withdraws its unsent ROSTER request. -/
def withdrawRoster (s : State) : State := s.withBac { s.bac with rosterItem := none }

/-- R122: the SPC places a SCAN frame; from a SCAN part of four the oldest is discarded and counted. -/
def placeScan (f : ScanFrame) (s : State) : State :=
  if s.bac.scanItems.length < Config.scanRoom then
    wakeTransmitter (s.withBac { s.bac with scanItems := s.bac.scanItems ++ [⟨{}, f⟩] })
  else
    wakeTransmitter (countOne .scanTxDropped
      (s.withBac { s.bac with scanItems := s.bac.scanItems.drop 1 ++ [⟨{}, f⟩] }))

/-- R122: a SCAN frame returns to the head of the SCAN part, as the oldest; if the part then holds five, it is the one
discarded and counted. -/
def returnScan (item : ScanItem) (s : State) : State :=
  if s.bac.scanItems.length < Config.scanRoom then
    s.withBac { s.bac with scanItems := item :: s.bac.scanItems }
  else countOne .scanTxDropped s

/-! ### Self-hold (R103, R104, R106) -/

/-- Is the gate driver HOLDING or RELEASED? -/
def GateDriver.takesPart : GateDriver → Bool
  | .holding | .released _ => true
  | _ => false

/-- R103: the condition of self-hold. -/
def State.selfHoldCondition (s : State) : Bool :=
  (s.hc.backlogReason || s.hc.freezeReason) && s.stu.gate.takesPart

/-- R104: self-hold becomes active. -/
def selfHoldActive (s : State) : State :=
  requestHold (s.withHc { s.hc with
    selfHold := true, requested := BitVec.ofNat 16 (s.param .holdQuanta), renewal := .running 0 })

/-- R106: self-hold becomes inactive, and the STU tests the release conditions again (R103). -/
def selfHoldInactive (s : State) : State :=
  testRelease (requestHold (s.withHc { s.hc with selfHold := false, requested := 0, renewal := .stopped }))

/-- R103: the test of self-hold, after each change of a reason or of the gate driver state. -/
def testSelfHold (s : State) : State :=
  if s.selfHoldCondition && !s.hc.selfHold then selfHoldActive s
  else if !s.selfHoldCondition && s.hc.selfHold then selfHoldInactive s
  else s

/-- The gate driver moves, and the HC is told (R103). -/
def moveGate (g : GateDriver) (s : State) : State := testSelfHold (s.withStu { s.stu with gate := g })

/-- The STU pulls GATE low and goes to HOLDING (R4, R5, R6): a new HOLDING period begins (R9). -/
def takeGate (s : State) : State :=
  testSelfHold (s.withStu { s.stu with gate := .holding, gateHigh := false, faultSeen := false })

/-- R2, R14: the STU goes to DETACHED. -/
def detachGate (s : State) : State :=
  testSelfHold (s.withStu { s.stu with
    gate := .detached, take := .clear, guard := .stopped, stall := .stopped, stallFlag := false, period := .stopped })

/-! ### The record queue (R85, R87, R91, R92, R95, R102) -/

/-- R102: the RCU has told the HC of a change of the backlog flag. -/
def backlogTold (s : State) : State := testSelfHold (s.withHc { s.hc with backlogReason := s.rcu.backlog })

/-- R95: the backlog test after an append. -/
def backlogAfterAppend (s : State) : State :=
  if !s.rcu.backlog && decide (s.param .queueHigh ≤ s.rcu.queue.length) then
    backlogTold (raiseEvent .queueHigh (s.withRcu { s.rcu with backlog := true }))
  else s

/-- R95: the backlog test after a release or a flush. -/
def backlogAfterRemoval (s : State) : State :=
  if s.rcu.backlog && decide (s.rcu.queue.length ≤ s.param .queueLow) then
    backlogTold (raiseEvent .queueLow (s.withRcu { s.rcu with backlog := false }))
  else s

/-- R85, R87, R88: the RCU appends a record; into an empty queue it becomes the head, the read pointer goes to 0 and
RECORD_AVAILABLE is raised. -/
def appendRecord (r : Record) (s : State) : State :=
  if s.rcu.queue.isEmpty then
    backlogAfterAppend (raiseEvent .recordAvailable (s.withRcu { s.rcu with queue := [r], pointer := 0 }))
  else backlogAfterAppend (s.withRcu { s.rcu with queue := s.rcu.queue ++ [r] })

/-! ### The self entry and the array state (R21, R43, R57) -/

/-- R21: the ACU sets the self entry; its miss count and hold stay 0 and its last heard scan none. When its state or
scans change, the STU tests the release conditions. -/
def setSelf (m : Membership) (s : State) : State :=
  let changed := s.withRu { s.ru with members := s.ru.members.set s.ownId { membership := m } }
  if (s.member s.ownId).membership = m then changed else testRelease changed

/-- R43 without the flush: the ACU enters CONFIGURED and clears its join and leave state, the self entry goes ABSENT,
the gate is detached and the unsent ROSTER request is withdrawn. -/
def restInConfigured (s : State) : State :=
  withdrawRoster (detachGate (setSelf .absent (s.withAcu { s.acu with
    state := .configured, joinScan := none, leaveScan := none, listen := .stopped, admission := none,
    matchingSeen := false, mismatchingSeen := false, refusalPending := false, drain := false })))

/-- R81: is no slot OPEN? -/
def Mu.tableEmpty (m : Mu) : Bool := m.slots.toList.all (·.isNone)

/-- R57: with the drain on and no OPEN entry, the drain is complete: CONFIGURED, and LEFT is raised. The flush of R43
then finds nothing to close. -/
def testDrain (s : State) : State :=
  if s.acu.state = .leaving ∧ s.acu.drain = true ∧ s.mu.tableEmpty = true then
    raiseEvent .left (restInConfigured s)
  else s

/-! ### Closing an entry (R62, R76, R77, R78, R79) -/

/-- R79: the record of an entry at its close. -/
def Entry.toRecord (e : Entry) (kind : CloseKind) (closeTime : Word) : Record where
  scan := e.scan
  kind := kind
  expected := e.expected
  present := e.present
  openTime := e.openTime
  closeTime := closeTime
  contributions := e.contributions

/-- R78 step 3, R80: the record goes to the queue, or is discarded and counted while the suspend flag is set. -/
def deliverRecord (r : Record) (s : State) : State :=
  if s.mu.suspended then countOne .recordsDiscarded s else appendRecord r s

/-- R78 steps 4 and 5: the close is counted, and a PARTIAL close is reported to the RU. -/
def countClose (kind : CloseKind) (e : Entry) (s : State) : State :=
  match kind with
  | .complete => countOne .recordsComplete s
  | .partialClose =>
    let counted := countOne .recordsPartial s
    counted.withRu { counted.ru with reports := counted.ru.reports ++ [⟨e.expected, e.present⟩] }
  | .realigned => s
  | .flushed => s

/-- R78 steps 6 and 7: the slot goes FREE and is no longer the current entry. -/
def freeSlot (i : Slot) (s : State) : State :=
  s.withMu { s.mu with
    slots := s.mu.slots.set i none, current := if s.mu.current = some i then none else s.mu.current }

/-- R78: the close of the entry in a slot, all eight steps; of a FREE slot, nothing. -/
def closeSlot (kind : CloseKind) (i : Slot) (s : State) : State :=
  match s.mu.slots[i] with
  | none => s
  | some e =>
    testDrain (freeSlot i (countClose kind e (deliverRecord (e.toRecord kind s.stu.time) s)))

/-- A slot with its scan put in a list kept oldest first (R62: the older is behind the other). -/
def insertByAge (x : Slot × Scan) : List (Slot × Scan) → List (Slot × Scan)
  | [] => [x]
  | y :: rest => if behind y.2 x.2 then x :: y :: rest else y :: insertByAge x rest

/-- The OPEN slots whose number and entry satisfy `p`, oldest first. -/
def Mu.oldestFirst (m : Mu) (p : Slot → Entry → Bool) : List Slot :=
  let chosen := (List.finRange 8).filterMap fun i =>
    match m.slots[i] with
    | some e => if p i e then some (i, e.scan) else none
    | none => none
  (chosen.foldl (fun l x => insertByAge x l) []).map (·.1)

/-- The OPEN entries that satisfy `p` close one after another, oldest first (R78). -/
def closeAll (kind : CloseKind) (p : Slot → Entry → Bool) (s : State) : State :=
  (s.mu.oldestFirst p).foldl (fun t i => closeSlot kind i t) s

/-- R77: the flush: every OPEN entry closes FLUSHED, and the current entry becomes none. -/
def flushTable (s : State) : State :=
  let closed := closeAll .flushed (fun _ _ => true) s
  closed.withMu { closed.mu with current := none }

/-- R43: the ACU enters CONFIGURED from LISTENING, JOINING or LEAVING, with the effects in the other units. -/
def enterConfigured (s : State) : State := flushTable (restInConfigured s)

/-! ### Filing (R70, R73, R74) -/

/-- A contribution stored in an OPEN entry, its node added to the present set. -/
def Entry.add (e : Entry) (c : Contribution) : Entry :=
  { e with present := insertId e.present c.node, contributions := insertContribution c e.contributions }

/-- The entry of a slot takes a contribution, and closes COMPLETE if the present set now equals the expected set (R74). -/
def storeContribution (i : Slot) (e : Entry) (c : Contribution) (s : State) : State :=
  let stored := s.withMu { s.mu with slots := s.mu.slots.set i (some (e.add c)) }
  if (e.add c).present = e.expected then closeSlot .complete i stored else stored

/-- R73: the MU files the own contribution into the current entry; one already present is kept. -/
def fileOwn (c : Contribution) (s : State) : State :=
  match s.mu.current with
  | none => s
  | some i =>
    match s.mu.slots[i] with
    | none => s
    | some e => if inSet e.present c.node then s else storeContribution i e c s

/-! ### Realign (R13, R33, R51, R76, R123) -/

/-- A membership with its scan numbers shifted (R33). -/
def Membership.shift (d : Scan) : Membership → Membership
  | .absent => .absent
  | .pending f => .pending (f + d)
  | .active f => .active (f + d)
  | .departing f u => .departing (f + d) (u + d)

/-- R33: an entry with every scan number it has shifted. -/
def Member.shift (d : Scan) (m : Member) : Member :=
  { m with membership := m.membership.shift d, lastHeard := m.lastHeard.map (· + d) }

/-- R33: the RU shifts every scan number of the table. -/
def shiftMembers (d : Scan) (s : State) : State :=
  s.withRu { s.ru with members := Vector.ofFn fun k => s.ru.members[k].shift d }

/-- R76: every OPEN entry but the current one closes REALIGNED, oldest first, and the current one is relabelled. -/
def realignTable (d : Scan) (s : State) : State :=
  let current := s.mu.current
  let closed := closeAll .realigned (fun i _ => decide (current ≠ some i)) s
  match closed.mu.current with
  | none => closed
  | some i =>
    match closed.mu.slots[i] with
    | none => closed
    | some e => closed.withMu { closed.mu with slots := closed.mu.slots.set i (some { e with scan := e.scan + d }) }

/-- R123: the SCAN frames of the list are relabelled, and the frame in transmission keeps the delta. -/
def shiftScanFrames (d : Scan) (s : State) : State :=
  s.withBac { s.bac with
    scanItems := s.bac.scanItems.map fun x => { x with frame := { x.frame with index := x.frame.index + d } }
    inTx := s.bac.inTx.map fun t => { t with delta := t.delta + d } }

/-- R51: the ACU shifts J in JOINING and L in LEAVING. -/
def shiftAcu (d : Scan) (s : State) : State :=
  match s.acu.state with
  | .joining => s.withAcu { s.acu with joinScan := s.acu.joinScan.map (· + d) }
  | .leaving => s.withAcu { s.acu with leaveScan := s.acu.leaveScan.map (· + d) }
  | _ => s

/-- R13: the STU applies a realign to index `n` and announces the delta to the RU, the MU, the BAC and the ACU. -/
def applyRealign (n : Scan) (s : State) : State :=
  let d := n - s.stu.index
  shiftAcu d (shiftScanFrames d (realignTable d (shiftMembers d
    (raiseEvent .realigned (countOne .realigns (s.withStu { s.stu with index := n }))))))

/-- R13: a realign request with index `n` from a frame of node `k`; ignored unless it is ahead and the ACU is in
JOINING, MEMBER or LEAVING. -/
def realignRequest (n : Scan) (k : NodeId) (s : State) : State :=
  if s.acu.state.inArray && aheadOfNode s.ownId k s.stu.index n then applyRealign n s else s

/-! ### The member table: changing it (R22, R26, R28, R29, R32) -/

/-- The RU replaces the table in one event; if a hold field went from nonzero to zero, it gives one signal (R32). -/
def replaceMembers (table : Vector Member 32) (s : State) : State :=
  let replaced := s.withRu { s.ru with members := table }
  if anyId fun k => (s.member k).hold != 0 && (table[k].hold == 0) then holdClearedSignal replaced else replaced

/-- Did some entry become ABSENT between the two tables? -/
def someRemoved (before after : Vector Member 32) : Bool :=
  anyId fun k => !before[k].membership.isAbsent && after[k].membership.isAbsent

/-- The RU replaces the table, raising MEMBER_CHANGE if an entry becomes ABSENT (R22, R29). -/
def removeMembers (table : Vector Member 32) (s : State) : State :=
  replaceMembers table (if someRemoved s.ru.members table then raiseEvent .memberChange s else s)

/-- R22: a peer entry advanced against the index `n` of a boundary. -/
def Member.advance (n : Scan) (m : Member) : Member :=
  match m.membership with
  | .pending f => if atOrBehind n f then { m with membership := .active f } else m
  | .departing _ u => if atOrBehind n u then Member.absentEntry else m
  | _ => m

/-- R28, R29: an entry for which a deadline report shows a miss, MISS_LIMIT being `limit`. -/
def Member.missed (limit : Nat) (m : Member) : Member :=
  let raised := min (m.missCount.toNat + 1) limit
  let lost := decide (raised = limit)
  let kept := { m with missCount := BitVec.ofNat 4 raised }
  match m.membership with
  | .absent => m
  | .pending _ => kept
  | .active _ => if lost then Member.absentEntry else kept
  | .departing _ _ => if lost then Member.absentEntry else kept

/-- R28: an entry after a deadline report, `k` being its id. -/
def Member.afterReport (limit : Nat) (own : NodeId) (r : MissReport) (k : NodeId) (m : Member) : Member :=
  if k = own ∨ inSet r.expected k = false then m
  else if inSet r.present k then { m with missCount := 0 }
  else m.missed limit

/-- R28, R29: the RU takes one deadline report. -/
def takeReport (r : MissReport) (s : State) : State :=
  removeMembers (Vector.ofFn fun k => (s.ru.members[k]).afterReport (s.param .missLimit) s.ownId r k) s

/-- The RU takes every deadline report handed to it, oldest first. -/
def takeAllReports (s : State) : State :=
  s.ru.reports.foldl (fun t r => takeReport r t) (s.withRu { s.ru with reports := [] })

/-- R26: the entry a ROSTER's list gives node `k`, `index` being the index the ACU has supplied. -/
def seededMember (own : NodeId) (list : List RosterEntry) (index : Scan) (k : NodeId) : Member :=
  if k = own then Member.absentEntry
  else match list.find? (·.id == k) with
    | none => Member.absentEntry
    | some e => { membership := match e.state with
        | .pending => .pending e.scan
        | .active => .active e.scan
        | .departing => .departing index e.scan }

/-- R26: the table is rebuilt from a list (empty at founding); no MEMBER_CHANGE is raised. -/
def rebuildMembers (list : List RosterEntry) (index : Scan) (s : State) : State :=
  replaceMembers (Vector.ofFn (seededMember s.ownId list index)) s

/-- The entry of node `k` is replaced. -/
def setMember (k : NodeId) (m : Member) (s : State) : State :=
  s.withRu { s.ru with members := s.ru.members.set k m }

/-! ### The sample port (R8, R132, R134, R137, R138, R140 to R145) -/

/-- Is a calibration in progress? -/
def State.calibrating (s : State) : Bool := s.spc.phase != .idle

/-- Is the count one of an accumulation capture (R143)? -/
def accumulates : Option Nat → Bool
  | some n => (decide (5 ≤ n) && decide (n ≤ 20)) || (decide (25 ≤ n) && decide (n ≤ 40))
  | none => false

/-- R10, R14: solo pacing turns off; in DETACHED the scan period timer stops with it. -/
def soloOff (s : State) : State :=
  if s.stu.solo then
    s.withStu { s.stu with solo := false, period := if s.stu.gate = .detached then .stopped else s.stu.period }
  else s

/-- R145: a calibration ends with a result; its sums are discarded. -/
def endCalibration (r : CalResult) (s : State) : State :=
  soloOff (raiseEvent .calDone (s.withSpc { s.spc with
    result := r, insel := .normal, phase := .idle, count := 0, sums := Vector.replicate 4 ⟨0, 0⟩ }))

/-- R144: the ACU reports a transition that ends a calibration in progress. -/
def abortCalibration (s : State) : State := if s.calibrating then endCalibration .aborted s else s

/-- R8: the *formed* signal of a capture; ignored when it names an earlier start than the most recent. -/
def formedSignal (tag : Option CaptureTag) (s : State) : State :=
  match tag with
  | none => s
  | some t =>
    if t.serial = s.stu.startSerial then testRelease (s.withStu { s.stu with formed := true }) else s

/-- R138 step 1: the contribution names the most recent capture start, that start is a boundary or the founding start,
and the node is eligible for the current index. -/
def State.contributes (s : State) (tag : Option CaptureTag) : Bool :=
  match tag with
  | none => false
  | some t => decide (t.serial = s.stu.startSerial) && (t.kind != .solo) && s.selfEligible

/-- R138: the own contribution is handed to the MU and the BAC, or withheld; then *formed* is signalled. -/
def handOn (c : Contribution) (tag : Option CaptureTag) (s : State) : State :=
  if s.contributes tag then
    let filed := fileOwn c s
    formedSignal tag (placeScan ⟨filed.stu.index, c⟩ filed)
  else formedSignal tag s

/-- The calibration count a tag carries. -/
def tagCount (tag : Option CaptureTag) : Option Nat := tag.bind (·.count)

/-- R134, R137, R143: a capture ends without samples, `failing` being its failing channel. -/
def endWithoutSamples (failing : Channel) (s : State) : State :=
  let tag := s.spc.tag
  let ended := s.withSpc { s.spc with capture := .idle }
  let handed := handOn { node := s.ownId, fault := true } tag (countOne .sampleFaults ended)
  if handed.calibrating && accumulates (tagCount tag) then endCalibration (.fail .fault failing) handed else handed

/-- The lowest-numbered enabled channel that is not ready, or none. -/
def State.lowestNotReady (s : State) : Option Channel :=
  (List.finRange 4).find? fun c => s.enabled c && !s.spc.ready[c]

/-- R134: a capture in progress is cut; with every channel ready its failing channel is channel 0. -/
def cutCapture (s : State) : State :=
  if s.spc.capture = .idle then s else endWithoutSamples (s.lowestNotReady.getD 0) s

/-- R140: the phase at a calibration count. -/
def phaseAtCount (n : Nat) : CalPhase :=
  if n ≤ 4 then .zeroSettle else if n ≤ 20 then .zeroAccum else if n ≤ 24 then .refSettle else .refAccum

/-- R140: the INSEL state at a calibration count. -/
def inselAtCount (n : Nat) : Insel := if n ≤ 20 then .zero else .reference

/-- R132, R134, R140: the SPC takes a capture start, after the STU has taken it: it cuts a capture in progress, whose bits
clocked so far are dropped, advances the calibration count at a boundary or solo boundary, records the tag and drives
CONVERT. -/
def captureStart (kind : StartKind) (s : State) : State :=
  let cut := cutCapture s
  let counts := cut.calibrating && (kind != .founding) && decide (cut.spc.count < 40)
  let n := cut.spc.count + 1
  let counted := if counts then
      { cut.spc with count := n, phase := phaseAtCount n, insel := inselAtCount n }
    else cut.spc
  cut.withSpc { counted with
    capture := .strobe
    tag := some ⟨kind, cut.stu.startSerial, if counts then some n else none⟩
    ready := Vector.replicate 4 false
    clocked := []
    raw := Vector.replicate 4 none
    elapsed := 0 }

/-! ### Command results (R165, R166) -/

/-- R166: an answer is placed in CMD_RESULT, unless a soft reset is pending. -/
def placeResult (r : CommandResult) (s : State) : State :=
  if s.bac.resetPending then s else s.withHpu { s.hpu with result := r }

/-- The answer to a command, with no error code. -/
def answer (c : HostCommand) (code : ResultCode) (s : State) : State := placeResult ⟨code, .none, .command c⟩ s

/-- R162: the port takes no transaction while RESETn is low. -/
def onPort (f : State → State) (s : State) : State := if s.hpu.resetnLow then s else f s

/-- R161: a write has been taken, at the 40th edge: the port is in DONE. -/
def writeTaken (s : State) : State := s.withHpu { s.hpu with transaction := .done }

/-- R161: a read has been taken, at the 8th edge: the port is in DATA, and shifts out the captured word from the falling
edge that follows. -/
def readTaken (w : Word) (s : State) : State := s.withHpu { s.hpu with transaction := .read 0, readWord := w }

/-- R165: a write of COMMAND has been taken, and its code is recorded. -/
def commandTaken (code : Word) (s : State) : State :=
  s.withHpu { s.hpu with transaction := .done, lastCode := code }

/-- R165: one of the nine commands, taken from the port. -/
def hostCommand (c : HostCommand) (f : State → State) (s : State) : State :=
  onPort (fun t => f (commandTaken (BitVec.ofNat 32 c.code) t)) s

/-! ### Entering array states (R44, R45, R114) -/

/-- R44: the ACU enters LISTENING, and the STU goes to OBSERVING (R2). Solo pacing, if on, is turned off (R10). -/
def enterListening (s : State) : State :=
  let off := soloOff s
  moveGate .observing (off.withAcu { off.acu with
    state := .listening, listen := .running 0, admission := none, matchingSeen := false,
    mismatchingSeen := false, reason := .none })

/-- R114: the BAC leaves OFF when the ACU first enters CONFIGURED after a reset. -/
def busOn (s : State) : State :=
  if s.bac.line = .off then
    s.withBac { s.bac with
      line := .on (s.param .bitRate) false, receiver := .seeking, transmitter := .idle, idleTime := 0 }
  else s

/-- R43, R45: the ACU enters CONFIGURED after a load or a commit, and goes on to LISTENING if AUTO_JOIN is 1. -/
def configurationDone (s : State) : State :=
  let configured := busOn (s.withAcu { s.acu with state := .configured })
  if configured.param .autoJoin = 1 then enterListening configured else configured

/-- R154, R156: the CS commits the written set. -/
def commitWritten (s : State) : State :=
  s.withCs { s.cs with
    committed := s.cs.written, digest := digestOf s.cs.written, load := .committed, error := .none }

/-- The ACU refuses a join: CONFIGURED with a refusal reason, and JOIN_REFUSED is raised (R46, R50, R51). -/
def refuseJoin (reason : RefusalReason) (s : State) : State :=
  let configured := enterConfigured s
  raiseEvent .joinRefused (configured.withAcu { configured.acu with reason := reason })

/-- R46: the listen timer is restarted, in LISTENING. -/
def restartListen (s : State) : State :=
  if s.acu.state = .listening then s.withAcu { s.acu with listen := .running 0 } else s

/-! ### Resets (R19, R39, R40, R84, R101, R112, R131, R147, R160, R173) -/

/-- A reset takes effect for every block of the part. The levels of GATE, FREEZE, EDI and the SDATA lines, and what waits in
the two queues, are not the part's to reset; what becomes of the host transaction depends on the kind of reset (R167). -/
def resetPart (cfgsrc : Bool) (transaction : Transaction) (readWord : Word) (resetnLow : Bool) (s : State) : State where
  stu := Stu.afterReset s.stu.gateHigh
  ru := Ru.afterReset
  mu := Mu.afterReset
  rcu := Rcu.afterReset
  hc := Hc.afterReset s.hc.freezeReason
  bac := Bac.afterReset
  spc := Spc.afterReset s.spc.sdata
  cs := Cs.afterReset cfgsrc s.cs.eeprom.edi
  hpu := Hpu.afterReset transaction readWord resetnLow
  acu := Acu.afterReset cfgsrc
  pending := s.pending
  pins := s.pins

/-- A soft reset takes effect: the host transaction goes on (R167). -/
def softResetNow (cfgsrc : Bool) (s : State) : State :=
  resetPart cfgsrc s.hpu.transaction s.hpu.readWord s.hpu.resetnLow s

/-! ### Output pins -/

/-- Does the node pull GATE low? Only in HOLDING (chapter 1). -/
def State.pullsGate (s : State) : Bool := s.stu.gate == .holding

/-- Is CONVERT driven high? Only in STROBE (R132). -/
def State.convertHigh (s : State) : Bool := s.spc.capture == .strobe

/-- Is SCLK being pulsed? Only in CLOCKING, up to the W-th pulse (R133). -/
def State.sclkRuns (s : State) : Bool :=
  (s.spc.capture == .clocking) && decide (s.spc.clocked.length < s.param .width)

/-- The levels of INSEL0 and INSEL1 (chapter 8). -/
def State.inselPins (s : State) : Bool × Bool :=
  match s.spc.insel with
  | .normal => (false, false)
  | .zero => (true, false)
  | .reference => (false, true)

/-- Is ECS driven low, the image read in progress? Only in READING, up to the end of the last cycle of ECK (R150). -/
def State.ecsLow (s : State) : Bool := (s.cs.load == .reading) && !s.cs.eeprom.readOver

/-- Is ECK high? Outside the read its level is a free value (log 33). -/
def State.eck (s : State) : Bool :=
  if s.ecsLow then s.cs.eeprom.eckHigh else Config.eckUnstated s.cs.eeprom.eckCycles

/-- The level of EDO: the instruction and the address in the first 24 cycles of the read; else a free value (log 33). -/
def State.edo (s : State) : Bool :=
  if s.ecsLow && decide (s.cs.eeprom.eckCycles < 8 * edoBytes.length) then bitSent edoBytes s.cs.eeprom.eckCycles
  else Config.edoUnstated s.cs.eeprom.eckCycles

/-- The bytes this node is sending on DATA, in SENDING (R125). -/
def State.sendingBytes (s : State) : Option (List Byte) :=
  if s.bac.transmitter = .sending then s.bac.inTx.map fun t => t.frame.encode else none

/-- What the node puts on DATA in bit time `n` of the attempt or the jam in progress: the frame in SENDING (R125), 32 bit
times of jam in JAMMING (R126), and nothing in every other state of the transmitter. -/
def State.dataOut (s : State) (n : Nat) : DataOut :=
  match s.bac.transmitter, s.bac.inTx with
  | .sending, some t => t.frame.inBitTime n
  | .jamming, _ => if n < 32 then .jam else .released
  | _, _ => .released

end Sys2Proof.Machine
end

