-- ==== Sys2Proof/Machine/ArrayBus.lean ====
section
/-! DEFINITION. The commands of the Bus Access Controller (chapter 7): the end of a received frame, the attempt with its
success, collision, jam and backoff, and the start and end of carrier. -/
namespace Sys2Proof.Machine

/-! ### RECEIVED_FRAME_END (R50, R117 to R120) -/

/-- The counter of a failed check (R117). -/
def RxError.counter : RxError → Counter
  | .fragment => .rxFragment | .oversize => .rxOversize | .crcError => .rxCrcErr | .malformed => .rxMalformed

/-- The counter of a frame's kind (R118). -/
def Frame.counter : Frame → Counter
  | .scan _ => .scanRx | .roster _ => .rosterRx | .hold _ _ => .holdRx

/-- R118: does the frame fail the digest test? Only a ROSTER carries a digest. -/
def Frame.wrongDigest (digest : BitVec 16) : Frame → Bool
  | .roster r => r.digest != digest
  | .scan _ | .hold _ _ => false

/-- R47, R118: a ROSTER is dropped for its digest, and the ACU in LISTENING is told. -/
def dropMismatch (s : State) : State :=
  let counted := countOne .digestMismatch s
  if counted.acu.state = .listening then counted.withAcu { counted.acu with mismatchingSeen := true } else counted

/-- R46, R118: a good frame is counted, with its kind, and in LISTENING the listen timer is restarted. -/
def countGood (f : Frame) (s : State) : State := restartListen (countOne f.counter (countOne .framesRxGood s))

/-- R50: what the ACU does at an identity conflict. -/
def conflictAtAcu (s : State) : State :=
  match s.acu.state with
  | .listening => refuseJoin .idConflict s
  | .joining => s.withAcu { s.acu with refusalPending := true }
  | .loading | .awaitingConfig | .configured | .member | .leaving => s

/-- R118, R119, R120: a good frame: the identity test, then the inbound buffer. -/
def takeGood (f : Frame) (s : State) : State :=
  if f.sender = s.ownId then conflictAtAcu (raiseEvent .idConflict (countGood f s))
  else if s.bac.inbound.length < Config.inboundRoom then
    let counted := countGood f s
    counted.withBac { counted.bac with inbound := counted.bac.inbound ++ [f] }
  else countOne .rxOverrun s

/-- R117, R118: the outcome of the checks. -/
def takeChecked (checked : Except RxError Frame) (s : State) : State :=
  match checked with
  | .error e => countOne e.counter s
  | .ok f => if f.wrongDigest s.cs.digest then dropMismatch s else takeGood f s

/-- R116: the carrier of a received frame has ended, and the receiver is READY again. -/
def carrierEnded (s : State) : State :=
  s.withBac { s.bac with line := s.bac.line.withCarrier false, receiver := .ready, idleTime := 0 }

/-- R117: the carrier of a received frame ends; `bytes` are its bytes. -/
def receivedFrameEndEffect (bytes : List Byte) (s : State) : State :=
  if s.bac.receiver = .receiving then takeChecked (checkFrame (s.param .width) bytes) (carrierEnded s) else s

/-- RECEIVED_FRAME_END. -/
def execReceivedFrameEnd (bytes : List Byte) (s : State) : Answer := .next (receivedFrameEndEffect bytes s)

/-! ### ACCESS_WAIT_COMPLETE (R35, R107, R124) -/

/-- R35: the entry of a ROSTER's list for a member entry, if it is not ABSENT. -/
def rosterEntryOf (k : NodeId) (m : Membership) : Option RosterEntry :=
  match m with
  | .absent => none
  | .pending f => some ⟨k, .pending, f⟩
  | .active f => some ⟨k, .active, f⟩
  | .departing _ u => some ⟨k, .departing, u⟩

/-- R35: the list of a ROSTER: every entry that is not ABSENT, in ascending order of id. -/
def State.rosterList (s : State) : List RosterEntry :=
  (List.finRange 32).filterMap fun k => rosterEntryOf k (s.member k).membership

/-- R35: the announced scan: J in JOINING, L in LEAVING, $FFFFFF otherwise (R174). -/
def State.announcedScan (s : State) : Scan :=
  match s.acu.state with
  | .joining => s.acu.joinScan.getD 0xFFFFFF
  | .leaving => s.acu.leaveScan.getD 0xFFFFFF
  | _ => 0xFFFFFF

/-- R35: the contents of a ROSTER frame, formed from the state at the start of its attempt. -/
def State.formRoster (s : State) : Roster where
  sender := s.ownId
  join := s.acu.state == .joining
  leave := s.acu.state == .leaving
  currentScan := s.stu.index
  announced := s.announcedScan
  digest := s.cs.digest
  list := s.rosterList

/-- R107: the contents of a HOLD frame, formed at the start of its attempt. -/
def State.formHold (s : State) : Frame := .hold s.ownId s.hc.requested

/-- R116, R124, R125: an attempt starts: `b` is the BAC with the chosen item out of the list. The receiver goes BLIND,
whatever state it was in. -/
def startAttempt (item : Item) (f : Frame) (b : Bac) (s : State) : State :=
  let deferring := s.bac.busyMark && !item.deferred
  let counted := if deferring then countOne .txDeferred s else s
  counted.withBac { b with
    inTx := some {
      item := { item with deferred := item.deferred || s.bac.busyMark }
      frame := f, delta := 0, givenUp := false, overlapped := s.bac.line.carrier }
    transmitter := .sending
    receiver := .blind
    line := s.bac.line.withCarrier true
    idleTime := 0
    phaseTime := 0 }

/-- R124: the choice at the start of an attempt: HOLD, then ROSTER, then the oldest SCAN; with none, IDLE. -/
def chooseItem (s : State) : State :=
  match s.bac.holdItem, s.bac.rosterItem, s.bac.scanItems with
  | some item, _, _ => startAttempt item s.formHold { s.bac with holdItem := none } s
  | none, some item, _ => startAttempt item (.roster s.formRoster) { s.bac with rosterItem := none } s
  | none, none, x :: rest => startAttempt x.item (.scan x.frame) { s.bac with scanItems := rest } s
  | none, none, [] => s.withBac { s.bac with transmitter := .idle, phaseTime := 0 }

/-- R124: the line has been idle for the gap in ACCESS_WAIT; with a soft reset pending no attempt starts (R129). A frame
being received then began within the wait's last moment: the attempt starts over it, and the receiver discards it without a
count (R116, log 34). -/
def accessWaitCompleteEffect (s : State) : State :=
  if s.bac.transmitter = .accessWait ∧ (s.bac.line.carrier = false ∨ s.bac.receiver = .receiving) then
    if s.bac.resetPending then s.withBac { s.bac with transmitter := .idle, phaseTime := 0 } else chooseItem s
  else s

/-- ACCESS_WAIT_COMPLETE. -/
def execAccessWaitComplete (s : State) : Answer := .next (accessWaitCompleteEffect s)

/-! ### The end of an attempt (R116) -/

/-- R116, R125, R126: this node lets the line go, and no frame is in transmission. The carrier of the attempt ends with it
and the receiver is READY; while carrier is still on the line (`lineBusy`) the receiver stays BLIND, until LINE_IDLE. -/
def attemptOver (lineBusy : Bool) (s : State) : State :=
  s.withBac { s.bac with
    inTx := none
    line := s.bac.line.withCarrier lineBusy
    receiver := if lineBusy then .blind else .ready
    idleTime := 0 }

/-! ### TX_SUCCESS (R108, R125) -/

/-- R108: a HOLD frame has been sent: the HC takes the quanta it carried. Other kinds need no action (R125). -/
def reportSuccess (f : Frame) (s : State) : State :=
  match f with
  | .hold _ q => countOne .holdsSent (s.withHc { s.hc with lastSent := q })
  | .scan _ | .roster _ => s

/-- R125: the last bit has been sent with no collision seen. Where another node's carrier has begun in the meantime, the
carrier goes on (R116, log 34). -/
def txSuccessEffect (s : State) : State :=
  match s.bac.transmitter, s.bac.inTx with
  | .sending, some t =>
    nextAttempt (reportSuccess t.frame (countOne .framesTx (attemptOver t.overlapped s)))
  | _, _ => s

/-- TX_SUCCESS. -/
def execTxSuccess (s : State) : Answer := .next (txSuccessEffect s)

/-! ### COLLISION (R126, R127) -/

/-- R126, R127: the frame in transmission after a collision at byte `atByte`, 0 being the start delimiter. -/
def InTx.collided (t : InTx) (atByte : Nat) : InTx :=
  if Config.earlyBytes < atByte then { t with givenUp := true }
  else
    { t with item := { t.item with attempt := t.item.attempt + 1 },
             givenUp := decide (Config.lastAttempt ≤ t.item.attempt + 1) }

/-- R126, R127: a collision is seen in SENDING, within the frame; the jam begins. An abandoned frame is counted here
(log 9). -/
def collisionEffect (atByte : Nat) (s : State) : State :=
  match s.bac.transmitter, s.bac.inTx with
  | .sending, some t =>
    if atByte ≤ t.frame.length then
      let counted := countOne .txCollisions s
      let abandoned := if (t.collided atByte).givenUp then countOne .txAbandoned counted else counted
      abandoned.withBac { abandoned.bac with
        inTx := some (t.collided atByte), transmitter := .jamming, phaseTime := 0 }
    else s
  | _, _ => s

/-- COLLISION. -/
def execCollision (atByte : Nat) (s : State) : Answer := .next (collisionEffect atByte s)

/-! ### JAM_END (R122, R123, R126, R127) -/

/-- R126: the frame returns to the list. A ROSTER returning outside JOINING, MEMBER and LEAVING is discarded, and a
SCAN frame takes the realigns announced since its attempt began (R123). -/
def returnFrame (t : InTx) (s : State) : State :=
  match t.frame with
  | .hold _ _ => s.withBac { s.bac with holdItem := some t.item }
  | .roster _ => if s.acu.state.inArray then s.withBac { s.bac with rosterItem := some t.item } else s
  | .scan f => returnScan ⟨t.item, { f with index := f.index + t.delta }⟩ s

/-- R126, R129: after a return: BACKOFF, or ACCESS_WAIT at once when the wait is 0 slots, or IDLE with a soft reset
pending. -/
def enterBackoff (attempt : Nat) (s : State) : State :=
  let slots := backoffSlots s.ownId attempt
  if s.bac.resetPending || slots == 0 then enterAccessWait s
  else s.withBac { s.bac with transmitter := .backoff, backoff := slots, phaseTime := 0 }

/-- R126, R127: the jam ends. -/
def jamEndEffect (lineBusy : Bool) (s : State) : State :=
  match s.bac.transmitter, s.bac.inTx with
  | .jamming, some t =>
    if t.givenUp then nextAttempt (attemptOver lineBusy s)
    else enterBackoff t.item.attempt (returnFrame t (attemptOver lineBusy s))
  | _, _ => s

/-- JAM_END. -/
def execJamEnd (lineBusy : Bool) (s : State) : Answer := .next (jamEndEffect lineBusy s)

/-! ### BACKOFF_END, CARRIER_START and LINE_IDLE (R116, R126) -/

/-- R126: the backoff slots have run out. -/
def backoffEndEffect (s : State) : State :=
  if s.bac.transmitter = .backoff then enterAccessWait (s.withBac { s.bac with backoff := 0 }) else s

/-- BACKOFF_END. -/
def execBackoffEnd (s : State) : Answer := .next (backoffEndEffect s)

/-- Is the line on and quiet? -/
def Line.quiet : Line → Bool
  | .on _ false => true
  | _ => false

/-- R116, R128: another node's carrier begins under the frame this node is sending (log 34). -/
def overlap (s : State) : State :=
  if s.bac.transmitter = .sending then
    s.withBac { s.bac with inTx := s.bac.inTx.map fun t => { t with overlapped := true } }
  else s

/-- R114, R116: a transition on a quiet line: carrier is present, and a READY receiver is RECEIVING. On a line that this
node drives in SENDING, the start of another node's carrier is noted. -/
def carrierStartEffect (s : State) : State :=
  if s.bac.line.quiet then
    s.withBac { s.bac with
      line := s.bac.line.withCarrier true
      receiver := if s.bac.receiver = .ready then .receiving else s.bac.receiver
      idleTime := 0 }
  else overlap s

/-- CARRIER_START. -/
def execCarrierStart (s : State) : Answer := .next (carrierStartEffect s)

/-- Is the node driving DATA? -/
def Transmitter.drives : Transmitter → Bool
  | .sending | .jamming => true
  | _ => false

/-- R114, R116: the line is seen idle: a SEEKING or BLIND receiver is READY. The end of a received carrier is
RECEIVED_FRAME_END's (log 8). -/
def lineIdleEffect (s : State) : State :=
  match s.bac.receiver with
  | .off | .receiving => s
  | .seeking | .ready | .blind =>
    if s.bac.transmitter.drives then s
    else
      s.withBac { s.bac with
        line := s.bac.line.withCarrier false
        receiver := .ready
        idleTime := if s.bac.line.carrier then 0 else s.bac.idleTime }

/-- LINE_IDLE. -/
def execLineIdle (s : State) : Answer := .next (lineIdleEffect s)

end Sys2Proof.Machine
end

