-- ==== Sys2Proof/Machine/ArrayStates.lean ====
section
/-! DEFINITION. The commands of the Array Control Unit (chapter 3): the listen timer with the founding of an array,
JOIN and LEAVE. -/
namespace Sys2Proof.Machine

/-! ### LISTEN_TIMER_EXPIRY (R6, R46, R49, R66) -/

/-- R6: the STU founds: it pulls GATE low at index 0, and the founding start is the newest capture start. -/
def foundGate (s : State) : State :=
  takeGate (s.withStu { s.stu with
    index := 0, period := .running 0, formed := false, boundaryTime := s.stu.time, take := .clear,
    startSerial := s.stu.startSerial + 1 })

/-- R66: the MU opens the entry for scan 0, expecting the own id alone. -/
def openFounding (s : State) : State :=
  match (List.finRange 8).find? fun i => s.mu.slots[i].isNone with
  | none => s
  | some i =>
    s.withMu { s.mu with
      slots := s.mu.slots.set i (some ⟨0, single s.ownId, 0, [], s.stu.boundaryTime⟩), current := some i }

/-- R6, R26, R49: the founding, done in every unit. -/
def found (s : State) : State :=
  let started := rebuildMembers [] 0 (openFounding (captureStart .founding (foundGate s)))
  raiseEvent .joined (setSelf (.active 0) (started.withAcu { started.acu with
    state := .member, joinScan := none, listen := .stopped }))

/-- R49: the answer to the founding request: done, or, GATE having fallen low, busy. -/
def requestFounding (gateFell : Bool) (s : State) : State :=
  if gateFell then restartListen (s.withStu { s.stu with gateHigh := false }) else found s

/-- R46: the table of the listen timer's expiry. -/
def listenExpired (gateFell : Bool) (s : State) : State :=
  if !s.stu.gateHigh then restartListen s
  else if s.acu.matchingSeen then
    restartListen (s.withAcu { s.acu with admission := none, matchingSeen := false, mismatchingSeen := false })
  else if s.acu.mismatchingSeen then refuseJoin .digest s
  else requestFounding gateFell s

/-- R46: the listen timer expires, in LISTENING. -/
def listenTimerExpiryEffect (gateFell : Bool) (s : State) : State :=
  if s.acu.state = .listening ∧ s.acu.listen matches .running _ then
    listenExpired gateFell (s.withAcu { s.acu with listen := .expired })
  else s

/-- LISTEN_TIMER_EXPIRY. -/
def execListenTimerExpiry (gateFell : Bool) (s : State) : Answer := .next (listenTimerExpiryEffect gateFell s)

/-! ### JOIN (R60) -/

/-- R60: the ACU takes JOIN. -/
def takeJoin (s : State) : State :=
  if s.acu.state = .configured ∧ s.calibrating = false then enterListening (answer .join .accepted s)
  else answer .join .wrongState s

/-- The command as the port takes it. -/
def joinEffect (s : State) : State := hostCommand .join takeJoin s

/-- JOIN. -/
def execJoin (s : State) : Answer := .next (joinEffect s)

/-! ### LEAVE (R53, R54, R55, R61) -/

/-- R54: LEAVE in JOINING: L is J, and the self entry DEPARTING from L until L. JOINING holds a join scan (log 17). -/
def leaveJoining (s : State) : State :=
  let l := s.acu.joinScan.getD s.stu.index
  let aborted := abortCalibration s
  requestRoster (setSelf (.departing l l) (aborted.withAcu { aborted.acu with
    state := .leaving, leaveScan := some l, joinScan := none, refusalPending := false }))

/-- R55: LEAVE in MEMBER: L is JOIN_LEAD ahead, and the self entry DEPARTING until L with its from scan kept. -/
def leaveMember (s : State) : State :=
  let l := s.stu.index + BitVec.ofNat 24 (s.param .joinLead)
  let fromScan := (s.member s.ownId).membership.fromScan?.getD s.stu.index
  let aborted := abortCalibration s
  requestRoster (setSelf (.departing fromScan l) (aborted.withAcu { aborted.acu with
    state := .leaving, leaveScan := some l }))

/-- R61: the ACU takes LEAVE. -/
def takeLeave (s : State) : State :=
  match s.acu.state with
  | .listening => enterConfigured (answer .leave .accepted s)
  | .joining => leaveJoining (answer .leave .accepted s)
  | .member => leaveMember (answer .leave .accepted s)
  | .loading | .awaitingConfig | .configured | .leaving => answer .leave .wrongState s

/-- The command as the port takes it. -/
def leaveEffect (s : State) : State := hostCommand .leave takeLeave s

/-- LEAVE. -/
def execLeave (s : State) : Answer := .next (leaveEffect s)

end Sys2Proof.Machine
end

