-- ==== Sys2Proof/Machine/ConfigStore.lean ====
section
/-! DEFINITION. The commands of the Configuration Store (chapter 9): COMMIT_CONFIG, the end of the image read, and the
write and the read of PARAM_VALUE, with the pins of the EEPROM port. -/
namespace Sys2Proof.Machine

/-! ### COMMIT_CONFIG (R42, R156) -/

/-- R156: the commit fails with error `e`. -/
def refuseCommit (e : ErrorCode) (s : State) : State :=
  placeResult ⟨.invalid, e, .command .commitConfig⟩ (s.withCs { s.cs with error := e })

/-- R156: the CS takes COMMIT_CONFIG. -/
def takeCommit (s : State) : State :=
  if s.acu.state = .awaitingConfig then
    match validate s.cs.written with
    | some e => refuseCommit e s
    | none => configurationDone (answer .commitConfig .accepted (commitWritten s))
  else answer .commitConfig .wrongState s

/-- The command as the port takes it. -/
def commitConfigEffect (s : State) : State := hostCommand .commitConfig takeCommit s

/-- COMMIT_CONFIG. -/
def execCommitConfig (s : State) : Answer := .next (commitConfigEffect s)

/-! ### The EEPROM port (R150) -/

/-- The level of EDI becomes `high`. -/
def setEdi (high : Bool) (s : State) : State :=
  s.withCs { s.cs with eeprom := { s.cs.eeprom with edi := high } }

/-- R150: the next edge of ECK, in READING. -/
def Cs.eckEdge (c : Cs) : Cs := if c.load = .reading then { c with eeprom := c.eeprom.eckEdge } else c

/-- One edge of ECK. -/
def eckMoves (s : State) : State := s.withCs s.cs.eckEdge

/-! ### IMAGE_READ_END (R41, R151, R154) -/

/-- R154: the load fails with error `e`, and the ACU enters AWAITING_CONFIG. -/
def loadFailed (e : ErrorCode) (s : State) : State :=
  let failed := raiseEvent .configError (s.withCs { s.cs with error := e, load := .empty, written := paramDefaults })
  failed.withAcu { failed.acu with state := .awaitingConfig }

/-- R154: the loaded set is committed and LOAD_DONE raised, before the move to LISTENING of R45. -/
def loadCommitted (s : State) : State := configurationDone (raiseEvent .loadDone (commitWritten s))

/-- R151, R152, R154: the outcome of an image. -/
def takeImage (image : List Byte) (s : State) : State :=
  match checkImage image with
  | .error e => loadFailed e s
  | .ok records =>
    match validate (loadedSet records) with
    | some e => loadFailed e s
    | none => loadCommitted (s.withCs { s.cs with written := loadedSet records })

/-- R150, R154: the image read is over, in LOADING: the bytes clocked in are the image. -/
def State.imageRead (s : State) : Bool := (s.acu.state == .loading) && s.cs.eeprom.readOver

/-- R154: the image has been read; before its last cycle of ECK has ended nothing happens (log 3). -/
def imageReadEndEffect (edi : Bool) (s : State) : State :=
  if s.imageRead then takeImage s.cs.eeprom.image (setEdi edi s) else s

/-- IMAGE_READ_END. -/
def execImageReadEnd (edi : Bool) (s : State) : Answer := .next (imageReadEndEffect edi s)

/-! ### PARAM_VALUE_WRITE (R155) -/

/-- R155, R167: what a write of PARAM_VALUE is for: what PARAM_SEL held when its transaction began. Only a soft reset
changes PARAM_SEL under a transaction, and R167 has the write that such a reset finds in progress stored in AWAITING_CONFIG,
without naming the parameter: DESIGN CHOICE (log 35). -/
def State.writeSelector (s : State) : BitVec 5 :=
  match s.hpu.transaction with
  | .address selector _ | .write selector _ _ => selector
  | .idle _ | .read _ | .done => s.cs.selector

/-- R155: the CS takes a write of PARAM_VALUE. -/
def takeParamValue (value : Word) (s : State) : State :=
  match s.cs.load with
  | .empty =>
    match paramOfNumber s.writeSelector.toNat with
    | some p => placeResult ⟨.accepted, .none, .paramWrite⟩
        (s.withCs { s.cs with written := s.cs.written.set p.index value })
    | none => placeResult ⟨.invalid, .unknownParam (s.writeSelector.setWidth 8), .paramWrite⟩ s
  | .reading | .committed => placeResult ⟨.wrongState, .none, .paramWrite⟩ s

/-- The write as the port takes it, at the end of the transaction in progress if there is one (R161). -/
def paramValueWriteEffect (value : Word) (s : State) : State := onPort (fun t => writeTaken (takeParamValue value t)) s

/-- PARAM_VALUE_WRITE. -/
def execParamValueWrite (value : Word) (s : State) : Answer := .next (paramValueWriteEffect value s)

/-- R155: what a read of PARAM_VALUE returns. -/
def State.paramValueWord (s : State) : Word :=
  let n := s.cs.selector.toNat
  if n = 0 then s.cs.error.word
  else if n = 24 then s.cs.digest.setWidth 32
  else match paramOfNumber n with
    | some p => (if s.cs.load = .empty then s.cs.written else s.cs.committed).value p
    | none => 0

end Sys2Proof.Machine
end

