-- ==== Sys2Proof/Machine/HoldControl.lean ====
section
/-! DEFINITION. The commands of the Hold Controller (chapter 6): the renewal expiry and the change of FREEZE. -/
namespace Sys2Proof.Machine

/-- R105: the renewal timer expires: with self-hold active a HOLD is requested again and the timer restarted. -/
def renewalExpiryEffect (s : State) : State :=
  match s.hc.renewal with
  | .running _ =>
    if s.hc.selfHold then
      requestHold (s.withHc { s.hc with
        requested := BitVec.ofNat 16 (s.param .holdQuanta), renewal := .running 0 })
    else s.withHc { s.hc with renewal := .stopped }
  | _ => s

/-- RENEWAL_EXPIRY. -/
def execRenewalExpiry (s : State) : Answer := .next (renewalExpiryEffect s)

/-- R102, R103: the filtered level of FREEZE changes, and self-hold is tested. -/
def freezeChangeEffect (high : Bool) (s : State) : State :=
  testSelfHold (s.withHc { s.hc with freezeReason := high })

/-- FREEZE_CHANGE. -/
def execFreezeChange (high : Bool) (s : State) : Answer := .next (freezeChangeEffect high s)

end Sys2Proof.Machine
end

