-- ==== Sys2Proof/Machine/MergeUnit.lean ====
section
/-! DEFINITION. The commands of the Merge Unit (chapter 4): the SCAN frame it takes, and the two commands that set and
clear its suspend flag. -/
namespace Sys2Proof.Machine

/-! ### SCAN_FRAME_TAKEN (R68 to R71) -/

/-- The OPEN slot whose entry has scan index `n`, with its entry (R70). -/
def Mu.slotOf (m : Mu) (n : Scan) : Option (Slot × Entry) :=
  (List.finRange 8).findSome? fun i =>
    match m.slots[i] with
    | some e => if e.scan = n then some (i, e) else none
    | none => none

/-- R27: the last heard scan of node `k` becomes `n`. -/
def setLastHeard (k : NodeId) (n : Scan) (s : State) : State := setMember k { s.member k with lastHeard := some n } s

/-- R70: a frame whose entry is OPEN, in slot `i`. -/
def fileInto (i : Slot) (e : Entry) (c : Contribution) (s : State) : State :=
  if !inSet e.expected c.node then countOne .contribUnexpected s
  else if inSet e.present c.node then countOne .contribDuplicate s
  else storeContribution i e c (setLastHeard c.node e.scan (countOne .contribAccepted s))

/-- R71: a frame for which no entry is OPEN. -/
def countUnfiled (n : Scan) (s : State) : State :=
  if s.acu.state = .joining ∨ n = s.stu.index then s else countOne .contribLate s

/-- R70, R71: the frame is filed, or counted. -/
def fileFrame (f : ScanFrame) (s : State) : State :=
  match s.mu.slotOf f.index with
  | some (i, e) => fileInto i e f.contribution s
  | none => countUnfiled f.index s

/-- R68, R69: the MU takes a SCAN frame. -/
def takeScanFrame (f : ScanFrame) (s : State) : State :=
  let k := f.contribution.node
  if !s.acu.state.inArray then s
  else if (s.member k).membership.isAbsent then countOne .contribUnlisted s
  else fileFrame f (realignRequest f.index k s)

/-- R68, R120: the MU takes the oldest buffered frame, when it is a SCAN frame. -/
def scanFrameTakenEffect (s : State) : State :=
  match s.bac.inbound with
  | .scan f :: rest => takeScanFrame f (s.withBac { s.bac with inbound := rest })
  | _ => s

/-- SCAN_FRAME_TAKEN. -/
def execScanFrameTaken (s : State) : Answer := .next (scanFrameTakenEffect s)

/-! ### SUSPEND_RECORDS and RESUME_RECORDS (R80, R94) -/

/-- R94: the suspend flag is set. -/
def suspendRecordsEffect (s : State) : State :=
  hostCommand .suspendRecords
    (fun t => answer .suspendRecords .accepted (t.withMu { t.mu with suspended := true })) s

/-- SUSPEND_RECORDS. -/
def execSuspendRecords (s : State) : Answer := .next (suspendRecordsEffect s)

/-- R94: the suspend flag is cleared. -/
def resumeRecordsEffect (s : State) : State :=
  hostCommand .resumeRecords
    (fun t => answer .resumeRecords .accepted (t.withMu { t.mu with suspended := false })) s

/-- RESUME_RECORDS. -/
def execResumeRecords (s : State) : Answer := .next (resumeRecordsEffect s)

end Sys2Proof.Machine
end

