-- ==== Sys2Proof/Machine/RecordUnit.lean ====
section
/-! DEFINITION. The commands of the Record Unit (chapter 5): release and flush, the reads of the record data word, the
record pointer and the projection descriptor, and the projection view. -/
namespace Sys2Proof.Machine

/-! ### RELEASE_RECORD and FLUSH_RECORDS (R91, R92) -/

/-- R91: the RCU takes RELEASE_RECORD. -/
def takeRelease (s : State) : State :=
  match s.rcu.queue with
  | [] => answer .releaseRecord .empty s
  | _ :: rest =>
    answer .releaseRecord .accepted (backlogAfterRemoval (s.withRcu { s.rcu with queue := rest, pointer := 0 }))

/-- The command as the port takes it. -/
def releaseRecordEffect (s : State) : State := hostCommand .releaseRecord takeRelease s

/-- RELEASE_RECORD. -/
def execReleaseRecord (s : State) : Answer := .next (releaseRecordEffect s)

/-- R92: the RCU takes FLUSH_RECORDS. -/
def takeFlush (s : State) : State :=
  answer .flushRecords .accepted (backlogAfterRemoval (s.withRcu { s.rcu with queue := [], pointer := 0 }))

/-- The command as the port takes it. -/
def flushRecordsEffect (s : State) : State := hostCommand .flushRecords takeFlush s

/-- FLUSH_RECORDS. -/
def execFlushRecords (s : State) : Answer := .next (flushRecordsEffect s)

/-! ### RECORD_DATA_READ (R88, R89, R90) -/

/-- R89: the word a read of the record data word returns. -/
def State.recordWord (s : State) : Word :=
  match s.rcu.queue with
  | [] => 0
  | r :: _ => r.wordAt s.rcu.pointer.toNat

/-- R88: the read pointer after a data read: one further, up to 255, with a record at the head. -/
def Rcu.pointerAfterRead (u : Rcu) : BitVec 8 :=
  if u.queue.isEmpty || u.pointer == 255 then u.pointer else u.pointer + 1

/-- R89: the record data word is read. -/
def recordDataReadEffect (s : State) : State :=
  onPort (fun t => readTaken t.recordWord (t.withRcu { t.rcu with pointer := t.rcu.pointerAfterRead })) s

/-- RECORD_DATA_READ. -/
def execRecordDataRead (s : State) : Answer := .next (recordDataReadEffect s)

/-! ### RECORD_POINTER_WRITE and PROJ_DESC_WRITE (R88, R97, R175) -/

/-- R88: the read pointer is written, modulo 256. -/
def recordPointerWriteEffect (value : Word) (s : State) : State :=
  onPort (fun t => writeTaken (t.withRcu { t.rcu with pointer := value.setWidth 8 })) s

/-- RECORD_POINTER_WRITE. -/
def execRecordPointerWrite (value : Word) (s : State) : Answer := .next (recordPointerWriteEffect value s)

/-- R97, R175: the count n a write of PROJ_DESC gives, a value above 32 being stored as 32. -/
def projCountOf (value : Word) : BitVec 6 := BitVec.ofNat 6 (min (value.extractLsb' 8 8).toNat 32)

/-- R97: the projection descriptor is written. -/
def projDescWriteEffect (value : Word) (s : State) : State :=
  onPort (fun t => writeTaken (t.withRcu { t.rcu with
    projFirst := value.extractLsb' 0 7, projCount := projCountOf value })) s

/-- PROJ_DESC_WRITE. -/
def execProjDescWrite (value : Word) (s : State) : Answer := .next (projDescWriteEffect value s)

/-! ### The projection view (R98 to R100) -/

/-- R98, R100: the sample slot `i` shows, or none. -/
def State.projection (s : State) (i : Nat) : Option Sample :=
  match s.rcu.queue with
  | [] => none
  | r :: _ => projectionSample r s.rcu.projFirst.toNat s.rcu.projCount.toNat i

/-- R98: what a read of slot `i` returns. -/
def State.projectionWord (s : State) (i : Nat) : Word := ((s.projection i).map sampleWord).getD 0

/-- R99: the presence mask. -/
def State.projectionMask (s : State) : Word := setOf fun i => (s.projection i.val).isSome

end Sys2Proof.Machine
end

