-- ==== Sys2Proof/Machine/Resets.lean ====
section
/-! DEFINITION. The reset commands: PIN_RESET, SOFT_RESET, SOFT_RESET_TAKES_EFFECT and RESETN_RELEASE. -/
namespace Sys2Proof.Machine

/-! ### PIN_RESET (R40, R130, R167) -/

/-- Is HSELn low (R161, R162)? -/
def Transaction.hselnLow : Transaction → Bool
  | .idle low => low
  | .address _ _ | .read _ | .write _ _ _ | .done => true

/-- RESETn falls: every block is reset at once, a host transaction is lost, the port is in IDLE and stays closed (R162);
the level of HSELn is an input and stays as it is. -/
def pinResetEffect (cfgsrc : Bool) (s : State) : State :=
  resetPart cfgsrc (.idle s.hpu.transaction.hselnLow) 0 true s

/-- PIN_RESET. -/
def execPinReset (cfgsrc : Bool) (s : State) : Answer := .next (pinResetEffect cfgsrc s)

/-! ### SOFT_RESET (R129, R166, R167) -/

/-- The level of the CFGSRC strap becomes `high`; it is read at a reset alone (R40, R149). -/
def setCfgsrc (high : Bool) (s : State) : State := s.withCs { s.cs with cfgsrc := high }

/-- The BAC takes SOFT_RESET: at once with no frame in transmission, else it is pending and the result is PENDING. The
level of CFGSRC that comes with the command is the strap's level from then on, and what is read when a pending reset
takes effect, unless it changes before (R40, log 27). -/
def takeSoftReset (cfgsrc : Bool) (s : State) : State :=
  if s.bac.inTx.isNone then softResetNow cfgsrc s
  else if s.bac.resetPending then setCfgsrc cfgsrc s
  else
    let shown := s.withHpu { s.hpu with result := ⟨.pending, .none, .command .softReset⟩ }
    setCfgsrc cfgsrc (shown.withBac { shown.bac with resetPending := true })

/-- The command as the port takes it. -/
def softResetEffect (cfgsrc : Bool) (s : State) : State := hostCommand .softReset (takeSoftReset cfgsrc) s

/-- SOFT_RESET. -/
def execSoftReset (cfgsrc : Bool) (s : State) : Answer := .next (softResetEffect cfgsrc s)

/-! ### SOFT_RESET_TAKES_EFFECT (R129) -/

/-- A pending soft reset takes effect once no frame is in transmission (log 13). -/
def softResetTakesEffectEffect (cfgsrc : Bool) (s : State) : State :=
  if s.bac.resetPending && s.bac.inTx.isNone then softResetNow cfgsrc s else s

/-- SOFT_RESET_TAKES_EFFECT. -/
def execSoftResetTakesEffect (cfgsrc : Bool) (s : State) : Answer := .next (softResetTakesEffectEffect cfgsrc s)

/-! ### RESETN_RELEASE (R162) -/

/-- RESETn rises: the port takes transactions again. -/
def resetnReleaseEffect (s : State) : State := s.withHpu { s.hpu with resetnLow := false }

/-- RESETN_RELEASE. -/
def execResetnRelease (s : State) : Answer := .next (resetnReleaseEffect s)

end Sys2Proof.Machine
end

