-- ==== Sys2Proof/Machine/SamplePort.lean ====
section
/-! DEFINITION. The commands of the Sample Port and Correction Unit (chapter 8): the CONVERT pulse, the readiness of a
channel, the end of a capture with correction and the own contribution, the timeout, and CALIBRATE. -/
namespace Sys2Proof.Machine

/-! ### CONVERT_PULSE_END and CHANNEL_READY (R132, R133) -/

/-- R132, R133: the CONVERT pulse ends. The level of each SDATA line stands in State, so a line that is high at the end of
the pulse and one that is low are told apart in WAITING. -/
def convertPulseEndEffect (s : State) : State :=
  if s.spc.capture = .strobe then s.withSpc { s.spc with capture := .waiting } else s

/-- CONVERT_PULSE_END. -/
def execConvertPulseEnd (s : State) : Answer := .next (convertPulseEndEffect s)

/-- The level of the SDATA line of channel `c` becomes `high`. -/
def setSdata (c : Channel) (high : Bool) (s : State) : State :=
  s.withSpc { s.spc with sdata := s.spc.sdata.set c high }

/-- R133: with the last enabled channel ready, the SPC clocks the values, from the first bit on. -/
def startClocking (s : State) : State :=
  if s.lowestNotReady.isNone then s.withSpc { s.spc with capture := .clocking, clocked := [], clockTime := 0 } else s

/-- R133: in WAITING, does a fall of the line of channel `c` make the channel ready? The line is high now, and so was high
at the end of the CONVERT pulse or has gone high since. -/
def State.awaitsFall (s : State) (c : Channel) : Bool :=
  (s.spc.capture == .waiting) && s.enabled c && s.spc.sdata[c]

/-- R133: the SDATA line of channel `c` goes low. A line that was low already makes no channel ready. -/
def channelReadyEffect (c : Channel) (s : State) : State :=
  let fallen := setSdata c false s
  if s.awaitsFall c then startClocking (fallen.withSpc { fallen.spc with ready := fallen.spc.ready.set c true })
  else fallen

/-- CHANNEL_READY. -/
def execChannelReady (c : Channel) (s : State) : Answer := .next (channelReadyEffect c s)

/-- R133: the SDATA line of channel `c` goes high, which undoes no readiness, or goes low. -/
def sdataChanges (c : Channel) (high : Bool) (s : State) : State :=
  if high then setSdata c true s else channelReadyEffect c s

/-! ### CAPTURE_COMPLETE (R133, R135 to R138, R140 to R142, R145) -/

/-- The enabled channels, 0 upward. -/
def State.enabledChannels (s : State) : List Channel := (List.finRange 4).filter fun c => s.enabled c

/-- R135: the coded value of a channel's raw value. -/
def State.coded (s : State) (raw : Vector RawValue 4) (c : Channel) : Int :=
  codedValue (s.param .width) (s.param .coding) raw[c]

/-- R136: the corrected value of a channel, and whether it saturated. -/
def State.corrected (s : State) (raw : Vector RawValue 4) (c : Channel) : Sample × Bool :=
  correctedValue (s.param .width) s.spc.table[c] (s.coded raw c)

/-- R137: the own contribution of a complete capture. -/
def State.ownContribution (s : State) (raw : Vector RawValue 4) : Contribution :=
  if s.calibrating then { node := s.ownId, cal := true }
  else
    { node := s.ownId
      ovr := s.enabledChannels.any fun c => (s.corrected raw c).2
      samples := s.enabledChannels.map fun c => (s.corrected raw c).1 }

/-- R141: the sums after a capture that carries count `n`. -/
def State.summed (s : State) (raw : Vector RawValue 4) (n : Nat) : Vector Sums 4 :=
  Vector.ofFn fun c =>
    let old := s.spc.sums[c]
    if !s.enabled c then old
    else if 5 ≤ n ∧ n ≤ 20 then { old with zero := old.zero + s.coded raw c }
    else if 25 ≤ n ∧ n ≤ 40 then { old with reference := old.reference + s.coded raw c }
    else old

/-- R141: a capture that carries a count is summed, while a calibration is in progress. -/
def sumCapture (raw : Vector RawValue 4) (s : State) : State :=
  match tagCount s.spc.tag with
  | some n => if s.calibrating then s.withSpc { s.spc with sums := s.summed raw n } else s
  | none => s

/-- R142: the evaluation of a channel. -/
def State.evaluate (s : State) (c : Channel) : Except CalCause Correction :=
  evaluateChannel (s.param .width) s.spc.sums[c]

/-- R142: the lowest-numbered enabled channel that fails, with its cause. -/
def State.firstFailure (s : State) : Option (CalCause × Channel) :=
  s.enabledChannels.findSome? fun c =>
    match s.evaluate c with
    | .error cause => some (cause, c)
    | .ok _ => none

/-- R142: the correction table after a PASS. -/
def State.passTable (s : State) : Vector Correction 4 :=
  Vector.ofFn fun c =>
    match s.enabled c, s.evaluate c with
    | true, .ok correction => correction
    | _, _ => s.spc.table[c]

/-- R142, R145: EVALUATE, entered and left within one event. -/
def evaluation (s : State) : State :=
  match s.firstFailure with
  | some (cause, c) => endCalibration (.fail cause c) s
  | none => endCalibration .pass (s.withSpc { s.spc with table := s.passTable })

/-- R140: the capture that carries count 40 is evaluated at its end. -/
def evaluateAtEnd (tag : Option CaptureTag) (s : State) : State :=
  if s.calibrating ∧ tagCount tag = some 40 then evaluation s else s

/-- R133: one pulse of SCLK in CLOCKING, up to the W-th: one bit is taken from each line as it stands. -/
def sclkPulses (s : State) : State :=
  if s.sclkRuns then s.withSpc { s.spc with clocked := s.spc.clocked ++ [s.spc.sdata] } else s

/-- R133: the levels of the SDATA lines at the pulses of the burst that are still to come. -/
def State.pulsesLeft (s : State) (coming : List SdataLevels) : List SdataLevels :=
  levelsAtPulses (s.param .width - s.spc.clocked.length) s.spc.sdata coming

/-- The levels of the SDATA lines after the burst. -/
def State.levelsAfter (s : State) (coming : List SdataLevels) : SdataLevels :=
  coming.getD (s.param .width - s.spc.clocked.length) (coming.getLastD s.spc.sdata)

/-- R133: the raw values after the W-th pulse of the burst. -/
def State.rawValues (s : State) (coming : List SdataLevels) : Vector RawValue 4 :=
  Vector.ofFn (rawOfPulses (s.param .width) (s.spc.clocked ++ s.pulsesLeft coming))

/-- R133: the raw values of the enabled channels are held, the burst is over, and the capture state is IDLE; `sdata` are
the levels of the lines after it. -/
def holdRaw (raw : Vector RawValue 4) (sdata : SdataLevels) (s : State) : State :=
  s.withSpc { s.spc with
    capture := .idle, sdata := sdata, clocked := []
    raw := Vector.ofFn fun c => if s.enabled c then some raw[c] else none }

/-- R137, R138, R140 to R142: a complete capture with its raw values: the own contribution is formed, summed and handed
on, and the capture of count 40 is evaluated. -/
def completeCapture (raw : Vector RawValue 4) (sdata : SdataLevels) (s : State) : State :=
  evaluateAtEnd s.spc.tag (handOn (s.ownContribution raw) s.spc.tag (sumCapture raw (holdRaw raw sdata s)))

/-- R133, R137, R138: the W-th pulse has passed: the capture is complete. -/
def captureCompleteEffect (coming : List SdataLevels) (s : State) : State :=
  if s.spc.capture = .clocking then
    completeCapture (s.rawValues coming) (s.levelsAfter coming) s
  else s

/-- CAPTURE_COMPLETE. -/
def execCaptureComplete (coming : List SdataLevels) (s : State) : Answer := .next (captureCompleteEffect coming s)

/-! ### SAMPLE_TIMEOUT (R134) -/

/-- R134: the capture has timed out in WAITING. -/
def sampleTimeoutEffect (s : State) : State :=
  if s.spc.capture = .waiting then endWithoutSamples (s.lowestNotReady.getD 0) s else s

/-- SAMPLE_TIMEOUT. -/
def execSampleTimeout (s : State) : Answer := .next (sampleTimeoutEffect s)

/-! ### CALIBRATE (R10, R139) -/

/-- R10: solo pacing turns on. -/
def soloOn (s : State) : State :=
  s.withStu { s.stu with solo := true, soloMade := false, period := .running 0, formed := false }

/-- R139: the calibration begins. A capture in progress carries no count of it (log 19). -/
def beginCalibration (s : State) : State :=
  s.withSpc { s.spc with
    result := .none, count := 0, sums := Vector.replicate 4 ⟨0, 0⟩, phase := .zeroSettle, insel := .zero,
    tag := s.spc.tag.map fun t => { t with count := none } }

/-- R139: the SPC takes CALIBRATE. -/
def takeCalibrate (s : State) : State :=
  if s.calibrating then answer .calibrate .wrongState s
  else match s.acu.state with
    | .configured => soloOn (beginCalibration (answer .calibrate .accepted s))
    | .member => beginCalibration (answer .calibrate .accepted s)
    | .loading | .awaitingConfig | .listening | .joining | .leaving => answer .calibrate .wrongState s

/-- The command as the port takes it. -/
def calibrateEffect (s : State) : State := hostCommand .calibrate takeCalibrate s

/-- CALIBRATE. -/
def execCalibrate (s : State) : Answer := .next (calibrateEffect s)

end Sys2Proof.Machine
end

