-- ==== Sys2Proof/Machine/ScanGate.lean ====
section
/-! DEFINITION. The commands of the Scan Timing Unit (chapter 1): the guard, scan period and
stall expiries, the boundary with what the four blocks do at it, the gate fault, the solo boundary and the fall of GATE. -/
namespace Sys2Proof.Machine

/-! ### GUARD_EXPIRY (R4, R5) -/

/-- Is the timer running? -/
def Timer.runs : Timer → Bool
  | .running _ => true
  | _ => false

/-- R4, in RELEASED: what becomes of GATE for the scan in progress. -/
def guardInReleased (s : State) : State :=
  match s.acu.state, s.acu.leaveScan with
  | .joining, _ => takeGate s
  | .member, _ => takeGate s
  | .leaving, some l => if behind l s.stu.index then takeGate s else moveGate .observing s
  | _, _ => s

/-- R4, R5, in OBSERVING: a take request set before this boundary is served. -/
def guardInObserving (s : State) : State :=
  if s.stu.take = .due then takeGate (s.withStu { s.stu with take := .clear }) else s

/-- R4: the guard timer expires. -/
def guardExpiryEffect (s : State) : State :=
  if s.stu.guard.runs then
    let stopped := s.withStu { s.stu with guard := .stopped }
    match stopped.stu.gate with
    | .released _ => guardInReleased stopped
    | .observing => guardInObserving stopped
    | .holding | .detached => stopped
  else s

/-- GUARD_EXPIRY. -/
def execGuardExpiry (s : State) : Answer := .next (guardExpiryEffect s)

/-! ### BOUNDARY (R1, R3) -/

/-- R1: does a high level of GATE, coming now, make a boundary? -/
def Stu.takesBoundary (u : Stu) : Bool :=
  match u.gate with
  | .released .wait => true
  | .observing | .released .guard => !u.gateHigh
  | .holding | .detached => false

/-- R17: does the boundary that starts `n` fall in a drain, or start the leave scan and so the drain? -/
def State.drainBoundary (s : State) (n : Scan) : Bool :=
  (s.acu.state == .leaving) && (s.acu.drain || s.acu.leaveScan.any (atOrBehind n))

/-- R5: a take request set before this boundary is served at its guard expiry. -/
def TakeRequest.atBoundary : TakeRequest → TakeRequest
  | .clear => .clear
  | .asked => .due
  | .due => .due

/-- R3: a boundary moves the wait phase to the guard phase. -/
def GateDriver.atBoundary : GateDriver → GateDriver
  | .released .wait => .released .guard
  | g => g

/-- R3, R17: what the STU itself does at a boundary. -/
def stuBoundary (s : State) : State :=
  let n := s.stu.index + 1
  let drain := s.drainBoundary n
  countOne .boundaries (s.withStu { s.stu with
    gate := s.stu.gate.atBoundary
    gateHigh := true
    guard := .running 0
    take := s.stu.take.atBoundary
    index := n
    period := .running 0
    formed := false
    stall := if drain then .running 0 else .stopped
    stallFlag := s.stu.stallFlag && drain
    boundaryTime := s.stu.time
    startSerial := s.stu.startSerial + 1 })

/-- R64: the ids a new entry for scan `n` expects. -/
def State.expectedAt (s : State) (n : Scan) : NodeSet :=
  insertId (setOf fun k => s.eligible k n && s.inWindows k) s.ownId

/-- R62, R64: the lowest-numbered FREE slot. -/
def Mu.freeSlot (m : Mu) : Option Slot := (List.finRange 8).find? fun i => m.slots[i].isNone

/-- R64, R66: an entry opens in the lowest-numbered FREE slot and becomes the current entry; with no slot FREE, which
R64 shows cannot be, nothing opens (log 16). -/
def openEntry (n : Scan) (expected : NodeSet) (s : State) : State :=
  match s.mu.freeSlot with
  | none => s
  | some i =>
    s.withMu { s.mu with slots := s.mu.slots.set i (some ⟨n, expected, 0, [], s.stu.boundaryTime⟩), current := some i }

/-- R63 steps 1 and 2: every entry at or behind N − D − 1 closes PARTIAL, oldest first, and no entry is current. -/
def closeAtDeadline (n : Scan) (s : State) : State :=
  let deadline := n - BitVec.ofNat 24 (s.param .closeLag) - 1
  let closed := closeAll .partialClose (fun _ e => atOrBehind deadline e.scan) s
  closed.withMu { closed.mu with current := none }

/-- R63 step 3: the entry for scan `n` opens if the node is eligible for it. -/
def openAtBoundary (n : Scan) (s : State) : State :=
  if s.eligible s.ownId n then openEntry n (s.expectedAt n) s else s

/-- R63, R64: what the MU does at the boundary that starts `n`. A boundary signalled in LISTENING opens nothing, in
either order of the MU and the ACU. -/
def muBoundary (order : BoundaryOrder) (listening : Bool) (n : Scan) (s : State) : State :=
  let closed := closeAtDeadline n s
  let reported := if order.reportsFirst then takeAllReports closed else closed
  if listening then reported else openAtBoundary n reported

/-- R34: does the RU schedule a ROSTER at the boundary that starts `n`? -/
def State.rosterDue (s : State) (n : Scan) : Bool :=
  let participates := match s.acu.state with
    | .joining | .member => true
    | .leaving => s.acu.leaveScan.any fun l => behind l n
    | _ => false
  participates && rosterScheduled n s.ownId (s.param .rosterInterval)

/-- R22: the RU advances the peer entries against `n`. -/
def advancePeers (n : Scan) (s : State) : State :=
  removeMembers (Vector.ofFn fun k => if k = s.ownId then s.ru.members[k] else (s.ru.members[k]).advance n) s

/-- R22, R34: the RU takes the boundary that starts `n`. -/
def ruTakesBoundary (n : Scan) (s : State) : State :=
  let advanced := advancePeers n s
  if advanced.rosterDue n then requestRoster advanced else advanced

/-- R22, R28, R34: what the RU does at the boundary that starts `n`, the reports waiting for it taken before, where the
order says so; a boundary signalled in LISTENING, or coming to the RU after the ACU's move to CONFIGURED, does nothing
here. -/
def ruBoundary (order : BoundaryOrder) (listening : Bool) (n : Scan) (s : State) : State :=
  let reported := if order.reportsBeforeRu then takeAllReports s else s
  if listening || !reported.acu.state.inArray then reported else ruTakesBoundary n reported

/-- R26, R48: the node is admitted by the roster it holds. -/
def enterByRoster (r : Roster) (s : State) : State :=
  let n := r.currentScan + 1
  let j := n + BitVec.ofNat 24 (s.param .joinLead)
  let supplied := s.withStu { s.stu with index := n }
  let joining := supplied.withAcu { supplied.acu with
    state := .joining, joinScan := some j, listen := .stopped, admission := none,
    matchingSeen := false, mismatchingSeen := false }
  let announced := requestRoster (setSelf (.pending j) (rebuildMembers r.list n joining))
  announced.withStu { announced.stu with take := .asked }

/-- R46, R48: the ACU's boundary in LISTENING. -/
def acuListening (s : State) : State :=
  match s.acu.admission with
  | some r => enterByRoster r s
  | none => restartListen s

/-- R51 step 2: the join scan has come. -/
def becomeMember (j : Scan) (s : State) : State :=
  raiseEvent .joined (setSelf (.active j) (s.withAcu { s.acu with state := .member, joinScan := none }))

/-- R4, R50, R51 step 1: the identity conflict's refusal, in either order of the ACU's transition and this boundary's
guard expiry. With the guard expiry first the STU pulls GATE low, or takes it for a take request that is due, and the
move to CONFIGURED lets it go at once (R2). -/
def refuseAtBoundary (guardFirst : Bool) (s : State) : State :=
  refuseJoin .idConflict (abortCalibration (if guardFirst then guardExpiryEffect s else s))

/-- R51: the ACU's boundary in JOINING. -/
def acuJoining (guardFirst : Bool) (n : Scan) (s : State) : State :=
  if s.acu.refusalPending then refuseAtBoundary guardFirst s
  else match s.acu.joinScan with
    | some j => if atOrBehind n j then becomeMember j s else s
    | none => s

/-- R56: the ACU's boundary in LEAVING. -/
def acuLeaving (n : Scan) (s : State) : State :=
  if !s.acu.drain && s.acu.leaveScan.any (atOrBehind n) then
    testDrain (setSelf .absent (s.withAcu { s.acu with drain := true }))
  else s

/-- What the ACU does at the boundary that starts `n` (R46, R48, R51, R56). -/
def acuBoundary (order : BoundaryOrder) (n : Scan) (s : State) : State :=
  match s.acu.state with
  | .listening => acuListening s
  | .joining => acuJoining order.guardFirst n s
  | .leaving => acuLeaving n s
  | .loading | .awaitingConfig | .configured | .member => s

/-- R3: the boundary is signalled to the SPC, the MU, the RU and the ACU. The manual leaves their order open and the
sender says it in `order` (DESIGN CHOICE, log 5): the SPC, then the MU and the RU in either order, with the ACU before
the first of the three that it is to precede, or last. The two orders of R4 and R50, the ACU's refusal before this
boundary's guard expiry or after it, are `order.guardFirst` (log 5). -/
def signalBoundary (order : BoundaryOrder) (s : State) : State :=
  let n := s.stu.index
  let listening := s.acu.state == .listening
  let acuAt (here : Bool) (t : State) : State := if here then acuBoundary order n t else t
  let mu := muBoundary order listening n
  let ru := ruBoundary order listening n
  let beforeOne := if order.ruBeforeMu then order.acuBeforeRu else order.acuBeforeMu
  let beforeOther := if order.ruBeforeMu then order.acuBeforeMu else order.acuBeforeRu
  let first := order.acuBeforeSpc
  let second := !first && beforeOne
  let third := !first && !second && beforeOther
  let last := !first && !second && !third
  let one := if order.ruBeforeMu then ru else mu
  let other := if order.ruBeforeMu then mu else ru
  acuAt last (other (acuAt third (one (acuAt second (captureStart .boundary (acuAt first s))))))

/-- BOUNDARY: GATE is high. It is a boundary as R1 says; in DETACHED, and where the line was high before, only the
level is noted, and in HOLDING a high level is R9's. -/
def boundaryEffect (order : BoundaryOrder) (s : State) : State :=
  if s.stu.takesBoundary then signalBoundary order (stuBoundary s)
  else match s.stu.gate with
    | .holding => s
    | _ => s.withStu { s.stu with gateHigh := true }

/-- BOUNDARY. -/
def execBoundary (order : BoundaryOrder) (s : State) : Answer := .next (boundaryEffect order s)

/-! ### SCAN_PERIOD_EXPIRY (R7, R14) -/

/-- R14: the scan period timer expires, and in HOLDING the release conditions are tested. -/
def scanPeriodExpiryEffect (s : State) : State :=
  if s.stu.period.runs then testRelease (s.withStu { s.stu with period := .expired }) else s

/-- SCAN_PERIOD_EXPIRY. -/
def execScanPeriodExpiry (s : State) : Answer := .next (scanPeriodExpiryEffect s)

/-! ### GATE_FAULT (R9) -/

/-- R9: GATE reads high in HOLDING; GATE_FAULT is raised once in a HOLDING period. -/
def gateFaultEffect (s : State) : State :=
  if s.stu.gate = .holding then
    let seen := s.withStu { s.stu with gateHigh := true, faultSeen := true }
    if s.stu.faultSeen then seen else raiseEvent .gateFault seen
  else s

/-- GATE_FAULT. -/
def execGateFault (s : State) : Answer := .next (gateFaultEffect s)

/-! ### SOLO_BOUNDARY (R10) -/

/-- R10: the condition of a solo boundary. -/
def Stu.soloDue (u : Stu) : Bool := u.solo && (u.period == .expired) && (u.formed || !u.soloMade)

/-- R10: a solo boundary, signalled to the SPC alone. -/
def soloBoundaryEffect (s : State) : State :=
  if s.stu.soloDue then
    captureStart .solo (s.withStu { s.stu with
      period := .running 0, formed := false, soloMade := true, startSerial := s.stu.startSerial + 1 })
  else s

/-- SOLO_BOUNDARY. -/
def execSoloBoundary (s : State) : Answer := .next (soloBoundaryEffect s)

/-! ### STALL_TIMER_EXPIRY (R16, R17, R58) -/

/-- R16, R17: the stall flag is set, GATE_STALL raised and GATE_STALLS counted. -/
def stalled (s : State) : State :=
  countOne .gateStalls (raiseEvent .gateStall (s.withStu { s.stu with stallFlag := true }))

/-- R16, R17, R58: the stall timer expires, in a drain or in the wait phase. -/
def stallTimerExpiryEffect (s : State) : State :=
  if s.stu.stall.runs then
    let expired := s.withStu { s.stu with stall := .expired }
    if s.acu.state = .leaving ∧ s.acu.drain = true then raiseEvent .left (enterConfigured (stalled expired))
    else if s.stu.gate = .released .wait then stalled expired
    else expired
  else s

/-- STALL_TIMER_EXPIRY. -/
def execStallTimerExpiry (s : State) : Answer := .next (stallTimerExpiryEffect s)

/-! ### GATE_LOW (R1) -/

/-- R1: the filtered level of GATE falls low. -/
def gateLowEffect (s : State) : State := s.withStu { s.stu with gateHigh := false }

/-- GATE_LOW. -/
def execGateLow (s : State) : Answer := .next (gateLowEffect s)

end Sys2Proof.Machine
end

