-- ==== Sys2Proof/Machine/HostPort.lean ====
section
/-! DEFINITION. The commands of the Host Port Unit (chapter 10): events, mask and statistics, the two views, and the
write and the read of any word of the register window (chapter 11), and the transaction bit by bit (R161). -/
namespace Sys2Proof.Machine

/-! ### EVENTS_WRITE, EVENT_MASK_WRITE, STAT_VALUE_WRITE (R168, R170, R172) -/

/-- R168: EVENTS is written. -/
def eventsWriteEffect (value : Word) (s : State) : State := onPort (fun t => clearEvents value (writeTaken t)) s

/-- EVENTS_WRITE. -/
def execEventsWrite (value : Word) (s : State) : Answer := .next (eventsWriteEffect value s)

/-- R170: EVENT_MASK is written. -/
def eventMaskWriteEffect (value : Word) (s : State) : State := onPort (fun t => setEventMask value (writeTaken t)) s

/-- EVENT_MASK_WRITE. -/
def execEventMaskWrite (value : Word) (s : State) : Answer := .next (eventMaskWriteEffect value s)

/-- R172: STAT_VALUE is written. -/
def statValueWriteEffect (value : Word) (s : State) : State := onPort (fun t => writeStatValue value (writeTaken t)) s

/-- STAT_VALUE_WRITE. -/
def execStatValueWrite (value : Word) (s : State) : Answer := .next (statValueWriteEffect value s)

/-! ### The member view (R38, R164) -/

/-- R164: the member view copy is taken of the selected entry. -/
def refreshMemberCopy (s : State) : State := s.withHpu { s.hpu with memberCopy := s.member s.ru.selector }

/-- R38, R175: the node id a write of MEMBER_SEL selects, modulo 32. -/
def selectedNode (value : Word) : NodeId := ⟨value.toNat % 32, Nat.mod_lt _ (by decide)⟩

/-- R38, R164: MEMBER_SEL is written. -/
def memberSelWriteEffect (value : Word) (s : State) : State :=
  onPort (fun t => refreshMemberCopy (writeTaken (t.withRu { t.ru with selector := selectedNode value }))) s

/-- MEMBER_SEL_WRITE. -/
def execMemberSelWrite (value : Word) (s : State) : Answer := .next (memberSelWriteEffect value s)

/-- The member view word of the copy as it stands (R164). -/
def State.memberWord (s : State) (word : Fin 4) : Word :=
  memberViewWord s.ownId s.ru.selector s.hpu.memberCopy word

/-- R164: a member view word is read; a read of word 0 takes a fresh copy first. -/
def takeMemberRead (word : Fin 4) (s : State) : State :=
  let copied := if word = 0 then refreshMemberCopy s else s
  readTaken (copied.memberWord word) copied

/-- The read as the port takes it. -/
def memberViewReadEffect (word : Fin 4) (s : State) : State := onPort (takeMemberRead word) s

/-- MEMBER_VIEW_READ. -/
def execMemberViewRead (word : Fin 4) (s : State) : Answer := .next (memberViewReadEffect word s)

/-! ### The merge view (R83, R164) -/

/-- R83: the fields of a slot as the view shows them. -/
def Mu.slotView (m : Mu) (i : Slot) : SlotView where
  fields := m.slots[i].map fun e => (e.scan, e.expected, e.present)
  isCurrent := m.current == some i

/-- R164: the merge view copy is taken of the selected slot. -/
def refreshMergeCopy (s : State) : State := s.withHpu { s.hpu with mergeCopy := s.mu.slotView s.mu.selector }

/-- R83, R175: the slot a write of MERGE_SEL selects, modulo 8. -/
def selectedSlot (value : Word) : Slot := ⟨value.toNat % 8, Nat.mod_lt _ (by decide)⟩

/-- R83, R164: MERGE_SEL is written. -/
def mergeSelWriteEffect (value : Word) (s : State) : State :=
  onPort (fun t => refreshMergeCopy (writeTaken (t.withMu { t.mu with selector := selectedSlot value }))) s

/-- MERGE_SEL_WRITE. -/
def execMergeSelWrite (value : Word) (s : State) : Answer := .next (mergeSelWriteEffect value s)

/-- The merge view word of the copy as it stands (R164). -/
def State.mergeWord (s : State) (word : Fin 4) : Word := mergeViewWord s.mu.selector s.hpu.mergeCopy word

/-- R164: a merge view word is read; a read of word 0 takes a fresh copy first. -/
def takeMergeRead (word : Fin 4) (s : State) : State :=
  let copied := if word = 0 then refreshMergeCopy s else s
  readTaken (copied.mergeWord word) copied

/-- The read as the port takes it. -/
def mergeViewReadEffect (word : Fin 4) (s : State) : State := onPort (takeMergeRead word) s

/-- MERGE_VIEW_READ. -/
def execMergeViewRead (word : Fin 4) (s : State) : Answer := .next (mergeViewReadEffect word s)

/-! ### A write of COMMAND, and UNKNOWN_COMMAND (R165) -/

/-- R165: a code that names no command is answered INVALID with UNKNOWN_COMMAND and acts on no block. -/
def unknownCode (code : Word) (s : State) : State :=
  onPort (fun t => placeResult ⟨.invalid, .unknownCommand, .unknown⟩ (commandTaken code t)) s

/-- R165: a write of COMMAND: the named command's effect, or the answer to an unknown code. A SOFT_RESET written here
reads CFGSRC at the level the strap has (log 27). -/
def commandWrite (code : Word) (s : State) : State :=
  match commandOfWord code with
  | some .join => joinEffect s
  | some .leave => leaveEffect s
  | some .calibrate => calibrateEffect s
  | some .releaseRecord => releaseRecordEffect s
  | some .flushRecords => flushRecordsEffect s
  | some .suspendRecords => suspendRecordsEffect s
  | some .resumeRecords => resumeRecordsEffect s
  | some .commitConfig => commitConfigEffect s
  | some .softReset => softResetEffect s.cs.cfgsrc s
  | none => unknownCode code s

/-- UNKNOWN_COMMAND: the COMMAND word `code`; one that names a command is that command (log 21). -/
def execUnknownCommand (code : Word) (s : State) : Answer := .next (commandWrite code s)

/-! ### REGISTER_WRITE (R155, R162, R172, R175) -/

/-- R155: PARAM_SEL is written, modulo 32. -/
def paramSelWrite (value : Word) (s : State) : State :=
  onPort (fun t => writeTaken (t.withCs { t.cs with selector := value.setWidth 5 })) s

/-- R172: STAT_SEL is written, modulo 32. -/
def statSelWrite (value : Word) (s : State) : State :=
  onPort (fun t => writeTaken (t.withHpu { t.hpu with statSel := value.setWidth 5 })) s

/-- R172, R175: STAT_MODE is written: bit 0, with 0 for DIRECT and 1 for DECREMENT. -/
def statModeWrite (value : Word) (s : State) : State :=
  onPort (fun t => writeTaken (t.withHpu { t.hpu with
    statMode := if value.getLsbD 0 then .decrement else .direct })) s

/-- R162: a write to a word of the read class, or to an address that names no word, is ignored. -/
def ignoredWrite (s : State) : State := onPort writeTaken s

/-- R162, R175: a host write of a word of the window. The words whose write has a row of its own act as that row. -/
def registerWriteEffect (address : BitVec 7) (value : Word) (s : State) : State :=
  match address.toNat with
  | 0x02 => eventsWriteEffect value s
  | 0x03 => eventMaskWriteEffect value s
  | 0x04 => commandWrite value s
  | 0x06 => paramSelWrite value s
  | 0x07 => paramValueWriteEffect value s
  | 0x08 => recordPointerWriteEffect value s
  | 0x0A => projDescWriteEffect value s
  | 0x0C => statSelWrite value s
  | 0x0D => statModeWrite value s
  | 0x0E => statValueWriteEffect value s
  | 0x0F => memberSelWriteEffect value s
  | 0x14 => mergeSelWriteEffect value s
  | _ => ignoredWrite s

/-- REGISTER_WRITE. -/
def execRegisterWrite (address : BitVec 7) (value : Word) (s : State) : Answer :=
  .next (registerWriteEffect address value s)

/-! ### Reading the window (R162, R163, R175) -/

/-- IDENT: the part code and the revision (chapter 11). -/
def identWord : Word := 0x04320001

/-- The STATE word (R163, chapter 11). -/
def State.stateWord (s : State) : Word :=
  field s.acu.state.code 0 ||| field s.acu.reason.code 3 ||| field s.stu.gate.code 5 ||| bitField s.stu.stallFlag 7
    ||| field s.spc.phase.code 8 ||| field s.spc.result.code 11 ||| field s.spc.result.causeCode 13
    ||| field s.spc.result.channelCode 15 ||| field s.rcu.queue.length 17 ||| bitField s.rcu.queue.isEmpty 23
    ||| bitField s.hc.backlogReason 24 ||| bitField s.hc.freezeReason 25 ||| bitField (s.hc.lastSent != 0) 26

/-- The PROJ_DESC word as it reads back (R175). -/
def State.projDescWord (s : State) : Word := s.rcu.projFirst.setWidth 32 ||| field s.rcu.projCount.toNat 8

/-- What a read of the word at `address` returns now (R162, chapter 11). The effect of a read of the record data word
and of a first view word is that row's; word 0 of a view is shown here of the copy that read takes. -/
def State.readRegister (s : State) (address : BitVec 7) : Word :=
  match address.toNat with
  | 0x00 => identWord
  | 0x01 => s.stateWord
  | 0x02 => s.eventsWord
  | 0x03 => s.hpu.mask.setWidth 32
  | 0x04 => s.hpu.lastCode
  | 0x05 => s.hpu.result.word
  | 0x06 => s.cs.selector.setWidth 32
  | 0x07 => s.paramValueWord
  | 0x08 => s.rcu.pointer.setWidth 32
  | 0x09 => s.recordWord
  | 0x0A => s.projDescWord
  | 0x0B => s.projectionMask
  | 0x0C => s.hpu.statSel.setWidth 32
  | 0x0D => match s.hpu.statMode with | .direct => 0 | .decrement => 1
  | 0x0E => s.statValue
  | 0x0F => field s.ru.selector.val 0
  | 0x10 => (refreshMemberCopy s).memberWord 0
  | 0x11 => s.memberWord 1
  | 0x12 => s.memberWord 2
  | 0x13 => s.memberWord 3
  | 0x14 => field s.mu.selector.val 0
  | 0x15 => (refreshMergeCopy s).mergeWord 0
  | 0x16 => s.mergeWord 1
  | 0x17 => s.mergeWord 2
  | 0x18 => s.mergeWord 3
  | n => if 0x20 ≤ n ∧ n ≤ 0x3F then s.projectionWord (n - 0x20) else 0

/-- R161, R162: a read of the word at `address` is taken, with the effect it has on the word's owner. -/
def takeRead (address : BitVec 7) (s : State) : State :=
  match address.toNat with
  | 0x09 => recordDataReadEffect s
  | 0x10 => memberViewReadEffect 0 s
  | 0x11 => memberViewReadEffect 1 s
  | 0x12 => memberViewReadEffect 2 s
  | 0x13 => memberViewReadEffect 3 s
  | 0x15 => mergeViewReadEffect 0 s
  | 0x16 => mergeViewReadEffect 1 s
  | 0x17 => mergeViewReadEffect 2 s
  | 0x18 => mergeViewReadEffect 3 s
  | _ => onPort (readTaken (s.readRegister address)) s

/-! ### The transaction bit by bit (R161, R162, R167; log 31, log 32) -/

/-- The port's transaction state is replaced. -/
def moveTransaction (x : Transaction) (s : State) : State := s.withHpu { s.hpu with transaction := x }

/-- R161: the command byte has been sampled: a read is taken, and a write goes on to its data bits. -/
def takeCommandByte (selector : BitVec 5) (bits : List Bool) (s : State) : State :=
  let address := BitVec.ofNat 7 (ofBits bits)
  if bits.headD false then takeRead address s else moveTransaction (.write selector address []) s

/-- R161: HSELn falls: a transaction begins, unless one is in progress. What PARAM_SEL holds now is kept (log 35). -/
def hselnFalls (s : State) : State :=
  if s.hpu.transaction = .idle false then moveTransaction (.address s.cs.selector []) s else s

/-- R161: HSCK rises with HSDI at `hsdi`: the bit is sampled, and at the 8th edge the command byte, at the 40th the write,
is taken. -/
def hsckRises (hsdi : Bool) (s : State) : State :=
  match s.hpu.transaction with
  | .address selector bits =>
    if bits.length + 1 < 8 then moveTransaction (.address selector (bits ++ [hsdi])) s
    else takeCommandByte selector (bits ++ [hsdi]) s
  | .write selector address bits =>
    if bits.length + 1 < 32 then moveTransaction (.write selector address (bits ++ [hsdi])) s
    else registerWriteEffect address (BitVec.ofNat 32 (ofBits (bits ++ [hsdi]))) s
  | .idle _ | .read _ | .done => s

/-- R161: HSCK falls: a read drives its next bit, and goes to DONE after the 32nd (log 31). -/
def hsckFalls (s : State) : State :=
  match s.hpu.transaction with
  | .read n => moveTransaction (if n < 32 then .read (n + 1) else .done) s
  | .idle _ | .address _ _ | .write _ _ _ | .done => s

/-- R162: with RESETn low the port ignores HSELn and HSCK; the level of HSELn is kept, since a transaction whose HSELn
fell then is not taken. No pulse of SCLK is driven (R147); an image read, which the reset begins at once (R149), goes on. -/
def pinEventInReset (e : PinEvent) (s : State) : State :=
  match e with
  | .hselnFall => moveTransaction (.idle true) s
  | .hselnRise => moveTransaction (.idle false) s
  | .hsckRise _ | .hsckFall | .sclkPulse => s
  | .cfgsrc high => setCfgsrc high s
  | .sdata c high => setSdata c high s
  | .edi high => setEdi high s
  | .eckEdge => eckMoves s

/-- What happens at a pin and has no row of the table (R133, R149, R150, R161, R162). -/
def pinEvent (e : PinEvent) (s : State) : State :=
  if s.hpu.resetnLow then pinEventInReset e s
  else match e with
    | .hselnFall => hselnFalls s
    | .hselnRise => moveTransaction (.idle false) s
    | .hsckRise hsdi => hsckRises hsdi s
    | .hsckFall => hsckFalls s
    | .cfgsrc high => setCfgsrc high s
    | .sdata c high => sdataChanges c high s
    | .sclkPulse => sclkPulses s
    | .edi high => setEdi high s
    | .eckEdge => eckMoves s

/-- R161, R162, R167: what is seen on HSDO: high impedance in IDLE and while RESETn is low; in a read's DATA phase the bit
driven last; low in every other phase; in a write's DATA phase a free value (log 31). -/
def State.hsdo (s : State) : Hsdo :=
  if s.hpu.resetnLow then .highZ
  else match s.hpu.transaction with
    | .idle _ => .highZ
    | .address _ _ | .done => .driven false
    | .read 0 => .driven false
    | .read (n + 1) => .driven (s.hpu.readWord.getMsbD n)
    | .write _ address bits => .driven (Config.hsdoInWrite address bits)

end Sys2Proof.Machine
end

