-- ==== Sys2Proof/Machine/RosterUnit.lean ====
section
/-! DEFINITION. The commands of the Roster Unit (chapter 2): the ROSTER and HOLD frames it takes, the hold countdown,
and the deadline reports. -/
namespace Sys2Proof.Machine

/-! ### ROSTER_TAKEN (R23, R24, R25, R37, R47, R52) -/

/-- A scan that is ahead of the current index is taken as it is; any other becomes the next index (R24, R25). -/
def State.scanAhead (s : State) (n : Scan) : Scan := if ahead s.stu.index n then n else s.stu.index + 1

/-- R24: a join announcement of node `k`. -/
def joinAnnouncement (k : NodeId) (j : Scan) (s : State) : State :=
  match (s.member k).membership with
  | .absent => raiseEvent .memberChange (setMember k { membership := .pending (s.scanAhead j) } s)
  | .pending _ => s
  | .active _ => s
  | .departing _ _ => countOne .contribUnlisted s

/-- R25: a leave announcement of node `k`. -/
def leaveAnnouncement (k : NodeId) (l : Scan) (s : State) : State :=
  let departing := fun f => setMember k { s.member k with membership := .departing f (s.scanAhead l) } s
  match (s.member k).membership with
  | .absent => s
  | .pending f => departing f
  | .active f => departing f
  | .departing _ _ => s

/-- R23 step 3: the flags decide which announcement is taken. -/
def takeAnnouncement (r : Roster) (s : State) : State :=
  if r.leave then leaveAnnouncement r.sender r.announced s
  else if r.join then joinAnnouncement r.sender r.announced s
  else s

/-- R37: has the sender of the roster dropped this node? -/
def State.droppedBy (s : State) (r : Roster) : Bool :=
  (match (s.member r.sender).membership with | .active _ => true | _ => false)
    && r.list.all (fun e => e.id != s.ownId)
    && ((s.member s.ownId).membership.fromScan?.any fun f => decide (65536 ≤ Scan.forward r.currentScan f))

/-- R52: the ACU rejoins. -/
def rejoin (s : State) : State :=
  let j := s.stu.index + BitVec.ofNat 24 (s.param .joinLead)
  requestRoster (setSelf (.pending j) (s.withAcu { s.acu with
    state := .joining, joinScan := some j, refusalPending := false }))

/-- R37, R52: the self-drop test, made in MEMBER alone. -/
def selfDropTest (r : Roster) (s : State) : State :=
  if s.acu.state = .member ∧ s.droppedBy r = true then rejoin (raiseEvent .dropped s) else s

/-- R23: the RU takes a ROSTER frame. -/
def takeRoster (r : Roster) (s : State) : State :=
  match s.acu.state with
  | .listening => s.withAcu { s.acu with admission := some r, matchingSeen := true }
  | .loading | .awaitingConfig | .configured => s
  | .joining | .member | .leaving =>
    selfDropTest r (takeAnnouncement r (realignRequest r.currentScan r.sender s))

/-- R23, R120: the RU takes the oldest buffered frame, when it is a ROSTER. -/
def rosterTakenEffect (s : State) : State :=
  match s.bac.inbound with
  | .roster r :: rest => takeRoster r (s.withBac { s.bac with inbound := rest })
  | _ => s

/-- ROSTER_TAKEN. -/
def execRosterTaken (s : State) : Answer := .next (rosterTakenEffect s)

/-! ### HOLD_TAKEN (R30) -/

/-- R30: node `k`, not ABSENT, has its hold remaining set; `m` is its entry. -/
def setHold (k : NodeId) (m : Member) (q : BitVec 16) (s : State) : State :=
  let replaced := setMember k { m with hold := q, holdPhase := 0 } s
  if q ≠ 0 then holdTakenSignal replaced
  else if m.hold ≠ 0 then holdClearedSignal replaced
  else replaced

/-- R30: the RU takes a HOLD frame. -/
def takeHold (k : NodeId) (q : BitVec 16) (s : State) : State :=
  if s.acu.state.inArray then
    if (s.member k).membership.isAbsent then countOne .contribUnlisted s else setHold k (s.member k) q s
  else s

/-- R30, R120: the RU takes the oldest buffered frame, when it is a HOLD. -/
def holdTakenEffect (s : State) : State :=
  match s.bac.inbound with
  | .hold k q :: rest => takeHold k q (s.withBac { s.bac with inbound := rest })
  | _ => s

/-- HOLD_TAKEN. -/
def execHoldTaken (s : State) : Answer := .next (holdTakenEffect s)

/-! ### HOLD_COUNTDOWN_EXPIRY (R31) -/

/-- R31: the hold field of node `k` reaches zero by countdown. -/
def holdCountdownExpiryEffect (k : NodeId) (s : State) : State :=
  if (s.member k).hold = 0 then s
  else holdClearedSignal (setMember k { s.member k with hold := 0, holdPhase := 0 } s)

/-- HOLD_COUNTDOWN_EXPIRY. -/
def execHoldCountdownExpiry (k : NodeId) (s : State) : Answer := .next (holdCountdownExpiryEffect k s)

/-! ### MISS_REPORT (R28, R29) -/

/-- R28, R29: the RU takes the oldest deadline report handed to it. -/
def missReportEffect (s : State) : State :=
  match s.ru.reports with
  | [] => s
  | r :: rest => takeReport r (s.withRu { s.ru with reports := rest })

/-- MISS_REPORT. -/
def execMissReport (s : State) : Answer := .next (missReportEffect s)

end Sys2Proof.Machine
end

