-- ==== Sys2Proof/Machine/Dispatch.lean ====
section
/-! DEFINITION. The meaning of a command: one arm for each constructor of Instr, each a direct call. -/
namespace Sys2Proof.Machine

def exec (i : Instr) (s : State) : Host.Outcome State Fault Refusal :=
  match i with
  | .pinReset cfgsrc => Sys2Proof.Machine.execPinReset cfgsrc s
  | .softReset cfgsrc => Sys2Proof.Machine.execSoftReset cfgsrc s
  | .softResetTakesEffect cfgsrc => Sys2Proof.Machine.execSoftResetTakesEffect cfgsrc s
  | .boundary order => Sys2Proof.Machine.execBoundary order s
  | .guardExpiry => Sys2Proof.Machine.execGuardExpiry s
  | .scanPeriodExpiry => Sys2Proof.Machine.execScanPeriodExpiry s
  | .gateFault => Sys2Proof.Machine.execGateFault s
  | .soloBoundary => Sys2Proof.Machine.execSoloBoundary s
  | .stallTimerExpiry => Sys2Proof.Machine.execStallTimerExpiry s
  | .listenTimerExpiry gateFell => Sys2Proof.Machine.execListenTimerExpiry gateFell s
  | .rosterTaken => Sys2Proof.Machine.execRosterTaken s
  | .holdTaken => Sys2Proof.Machine.execHoldTaken s
  | .holdCountdownExpiry k => Sys2Proof.Machine.execHoldCountdownExpiry k s
  | .missReport => Sys2Proof.Machine.execMissReport s
  | .renewalExpiry => Sys2Proof.Machine.execRenewalExpiry s
  | .freezeChange high => Sys2Proof.Machine.execFreezeChange high s
  | .scanFrameTaken => Sys2Proof.Machine.execScanFrameTaken s
  | .receivedFrameEnd bytes => Sys2Proof.Machine.execReceivedFrameEnd bytes s
  | .accessWaitComplete => Sys2Proof.Machine.execAccessWaitComplete s
  | .txSuccess => Sys2Proof.Machine.execTxSuccess s
  | .collision atByte => Sys2Proof.Machine.execCollision atByte s
  | .jamEnd lineBusy => Sys2Proof.Machine.execJamEnd lineBusy s
  | .backoffEnd => Sys2Proof.Machine.execBackoffEnd s
  | .convertPulseEnd => Sys2Proof.Machine.execConvertPulseEnd s
  | .channelReady c => Sys2Proof.Machine.execChannelReady c s
  | .captureComplete sdata => Sys2Proof.Machine.execCaptureComplete sdata s
  | .sampleTimeout => Sys2Proof.Machine.execSampleTimeout s
  | .calibrate => Sys2Proof.Machine.execCalibrate s
  | .join => Sys2Proof.Machine.execJoin s
  | .leave => Sys2Proof.Machine.execLeave s
  | .releaseRecord => Sys2Proof.Machine.execReleaseRecord s
  | .flushRecords => Sys2Proof.Machine.execFlushRecords s
  | .suspendRecords => Sys2Proof.Machine.execSuspendRecords s
  | .resumeRecords => Sys2Proof.Machine.execResumeRecords s
  | .commitConfig => Sys2Proof.Machine.execCommitConfig s
  | .unknownCommand code => Sys2Proof.Machine.execUnknownCommand code s
  | .imageReadEnd edi => Sys2Proof.Machine.execImageReadEnd edi s
  | .paramValueWrite v => Sys2Proof.Machine.execParamValueWrite v s
  | .recordDataRead => Sys2Proof.Machine.execRecordDataRead s
  | .recordPointerWrite v => Sys2Proof.Machine.execRecordPointerWrite v s
  | .projDescWrite v => Sys2Proof.Machine.execProjDescWrite v s
  | .memberSelWrite v => Sys2Proof.Machine.execMemberSelWrite v s
  | .memberViewRead word => Sys2Proof.Machine.execMemberViewRead word s
  | .mergeSelWrite v => Sys2Proof.Machine.execMergeSelWrite v s
  | .mergeViewRead word => Sys2Proof.Machine.execMergeViewRead word s
  | .eventsWrite v => Sys2Proof.Machine.execEventsWrite v s
  | .eventMaskWrite v => Sys2Proof.Machine.execEventMaskWrite v s
  | .statValueWrite v => Sys2Proof.Machine.execStatValueWrite v s
  | .registerWrite address v => Sys2Proof.Machine.execRegisterWrite address v s
  | .gateLow => Sys2Proof.Machine.execGateLow s
  | .carrierStart => Sys2Proof.Machine.execCarrierStart s
  | .lineIdle => Sys2Proof.Machine.execLineIdle s
  | .resetnRelease => Sys2Proof.Machine.execResetnRelease s

end Sys2Proof.Machine
end

