-- ==== Sys2Proof/Machine/Idle.lean ====
section
/-! DEFINITION. What the block does with no command waiting (log 2): it takes a waiting pin change that has no row; or an
event that the part itself is due to make, because a timer of its own has run its time, is put in the queue of waiting
commands; or a microsecond passes. -/
namespace Sys2Proof.Machine

/-! ### The events that are due -/

/-- Has the timer run for `limit` µs? -/
def Timer.ranFor (t : Timer) (limit : Nat) : Bool :=
  match t with
  | .running us => decide (limit ≤ us)
  | _ => false

/-- The bit rate in Mbit/s, which is also the number of bit times in a µs; 0 with the line OFF (R114). -/
def Line.mbit : Line → Nat
  | .off => 0
  | .on m _ => m

/-- Have `bits` bit times passed in `us` µs? -/
def Bac.timePassed (b : Bac) (us bits : Nat) : Bool := decide (bits ≤ us * b.line.mbit)

/-- A frame in the inbound buffer is handed to the block that takes it (R120). -/
def Frame.taken : Frame → Instr
  | .scan _ => .scanFrameTaken
  | .roster _ => .rosterTaken
  | .hold _ _ => .holdTaken

/-- The event of the transmitter that is due, if one is (R124, R125, R126). -/
def Bac.dueInTransmitter (b : Bac) : Option Instr :=
  match b.transmitter with
  | .sending =>
    if b.timePassed b.phaseTime ((b.inTx.map fun t => t.frame.bitTimes).getD 0) then some .txSuccess else none
  | .jamming => if b.timePassed b.phaseTime 32 then some (.jamEnd false) else none
  | .backoff => if b.timePassed b.phaseTime (64 * b.backoff) then some .backoffEnd else none
  | .accessWait => if !b.line.carrier && b.timePassed b.idleTime 48 then some .accessWaitComplete else none
  | .off | .idle => none

/-- The line has been quiet for 2 bit times, and the receiver waits for that (R116). -/
def Bac.dueInReceiver (b : Bac) : Option Instr :=
  if b.receiver = .seeking ∧ b.line.quiet = true ∧ b.timePassed b.idleTime 2 = true then some .lineIdle else none

/-- The event of the sample port that is due (R132, R133, R134); after the W-th pulse of SCLK the capture is complete, with
no pulse left to drive. -/
def State.dueInSamplePort (s : State) : Option Instr :=
  match s.spc.capture with
  | .strobe => if Config.convertPulse ≤ s.spc.elapsed then some .convertPulseEnd else none
  | .waiting => if s.param .sampleTimeout ≤ s.spc.elapsed then some .sampleTimeout else none
  | .clocking => if s.param .width ≤ s.spc.clocked.length then some (.captureComplete []) else none
  | .idle => none

/-- The end of the image read, once its last cycle of ECK has ended (R150, R154). -/
def State.dueImageEnd (s : State) : Option Instr := if s.imageRead then some (.imageReadEnd s.cs.eeprom.edi) else none

/-- The timer of the STU, the ACU or the HC that has run its time (R4, R10, R14, R16, R46, R105). -/
def State.dueTimer (s : State) : Option Instr :=
  if s.stu.soloDue then some .soloBoundary
  else if s.stu.guard.ranFor Config.guardTime then some .guardExpiry
  else if s.stu.period.ranFor (s.param .scanPeriod) then some .scanPeriodExpiry
  else if s.stu.stall.ranFor (1000 * s.param .stallLimit) then some .stallTimerExpiry
  else if (s.acu.state == .listening) && s.acu.listen.ranFor (10000 * s.param .listenTimeout) then some (.listenTimerExpiry false)
  else if s.hc.renewal.ranFor (50 * s.param .holdQuanta) then some .renewalExpiry
  else none

/-- R31: the lowest id whose hold field has run down. -/
def State.dueHold (s : State) : Option Instr :=
  ((List.finRange 32).find? fun k =>
    (s.member k).hold == 1 && decide (Config.holdQuantum ≤ (s.member k).holdPhase)).map Instr.holdCountdownExpiry

/-- What one block has handed to another and the other has still to take, and the boundary of R1 that the level of
GATE makes in the wait phase. -/
def State.dueHandover (s : State) : Option Instr :=
  if s.bac.resetPending && s.bac.inTx.isNone then some (.softResetTakesEffect s.cs.cfgsrc)
  else if (s.stu.gate == .released .wait) && s.stu.gateHigh then some (.boundary {})
  else if !s.ru.reports.isEmpty then some .missReport
  else s.bac.inbound.head?.map Frame.taken

/-- The event of the part's own that is due, if one is. -/
def State.nextDue (s : State) : Option Instr :=
  s.dueHandover <|> s.dueTimer <|> s.dueImageEnd <|> s.dueInSamplePort <|> s.dueHold <|> s.bac.dueInReceiver
    <|> s.bac.dueInTransmitter

/-! ### A microsecond passes -/

/-- A timer after one more µs. -/
def Timer.tick : Timer → Timer
  | .running us => .running (us + 1)
  | t => t

/-- R18: the STU after one more µs. -/
def Stu.tick (u : Stu) : Stu :=
  { u with time := u.time + 1, guard := u.guard.tick, period := u.period.tick, stall := u.stall.tick }

/-- R31: a nonzero hold field falls by one for each 100 µs; its last fall is HOLD_COUNTDOWN_EXPIRY's (log 23). -/
def Member.tick (m : Member) : Member :=
  if m.hold = 0 then m
  else if m.hold ≠ 1 ∧ Config.holdQuantum ≤ m.holdPhase + 1 then { m with hold := m.hold - 1, holdPhase := 0 }
  else { m with holdPhase := m.holdPhase + 1 }

/-- The BAC after one more µs: the time in the state, and the idle time of a quiet line. -/
def Bac.tick (b : Bac) : Bac :=
  { b with phaseTime := b.phaseTime + 1, idleTime := if b.line.carrier then 0 else b.idleTime + 1 }

/-- The SPC after one more µs, with `w` bits to clock: in CLOCKING the pulses of SCLK that have come due, 8 in each µs of
the burst up to the W-th, take the levels the SDATA lines have (R133). -/
def Spc.tick (w : Nat) (p : Spc) : Spc :=
  if p.capture = .clocking then
    let due := min w (Config.sclkPerMicrosecond * (p.clockTime + 1))
    { p with
      elapsed := p.elapsed + 1, clockTime := p.clockTime + 1
      clocked := p.clocked ++ List.replicate (due - p.clocked.length) p.sdata }
  else { p with elapsed := p.elapsed + 1 }

/-- R150: ECK runs at 1 MHz, so each µs of the image read has two edges of it. -/
def Cs.tick (c : Cs) : Cs := c.eckEdge.eckEdge

/-- A microsecond passes in every unit. -/
def tick (s : State) : State :=
  { s with
    stu := s.stu.tick
    ru := { s.ru with members := Vector.ofFn fun k => s.ru.members[k].tick }
    hc := { s.hc with renewal := s.hc.renewal.tick }
    bac := s.bac.tick
    spc := s.spc.tick (s.param .width)
    cs := s.cs.tick
    acu := { s.acu with listen := s.acu.listen.tick } }

/-- With no command and no pin change waiting: an event that is due is put in the queue; with none due, a µs passes. -/
def idleAlone (s : State) : State :=
  match s.nextDue with
  | some c => s.withPending [c]
  | none => tick s

/-- The step with no command waiting: the oldest waiting pin change is taken (log 32); with none, the block is alone. -/
def idle (s : State) : State :=
  match s.pins with
  | e :: rest => pinEvent e (s.withPins rest)
  | [] => idleAlone s

end Sys2Proof.Machine
end

