-- ==== Sys2Proof/Safety.lean ====
section
/-! DEFINITION. What counts as a lawful state, in the terms the statements use: the laws of the part that its rules
name, each a property of one State. -/
namespace Sys2Proof

/-! ### Where the ACU stands in the order of a boundary (log 5) -/

/-- The ACU takes the boundary before the MU does. -/
def BoundaryOrder.acuPrecedesMu (o : BoundaryOrder) : Bool :=
  o.acuBeforeSpc || o.acuBeforeMu || (o.ruBeforeMu && o.acuBeforeRu)

/-- The ACU takes the boundary before the RU does. -/
def BoundaryOrder.acuPrecedesRu (o : BoundaryOrder) : Bool :=
  o.acuBeforeSpc || o.acuBeforeRu || (!o.ruBeforeMu && o.acuBeforeMu)

/-- The RU takes the reports at this boundary, and the ACU has taken the boundary before the first of them. -/
def BoundaryOrder.reportsAfterAcu (o : BoundaryOrder) : Bool :=
  if o.reportsBeforeRu && (o.ruBeforeMu || !o.reportsFirst) then o.acuPrecedesRu
  else o.reportsFirst && o.acuPrecedesMu

end Sys2Proof

namespace Sys2Proof.Machine

/-- The law of R31, with R22 and R29: an ABSENT entry has hold remaining 0 and miss count 0. -/
abbrev State.HoldLaw (s : State) : Prop :=
  ∀ k : NodeId, (s.member k).membership = .absent → (s.member k).hold = 0 ∧ (s.member k).missCount = 0

/-- An item of the transmit list has an attempt number of 0 to 7 (R121). -/
abbrev Item.Lawful (x : Item) : Prop := x.attempt ≤ 7

/-- The laws of the bus controller: the room of the inbound buffer and of the SCAN part (R120, R121), the attempt
numbers (R121, R127), a frame in transmission exactly in SENDING and JAMMING, where the receiver is BLIND (R116), and
everything OFF together (R114). -/
abbrev State.BusLaw (s : State) : Prop :=
  s.bac.inbound.length ≤ 4
  ∧ s.bac.scanItems.length ≤ 4
  ∧ (∀ x ∈ s.bac.scanItems, x.item.Lawful)
  ∧ (∀ x ∈ s.bac.holdItem, x.Lawful)
  ∧ (∀ x ∈ s.bac.rosterItem, x.Lawful)
  ∧ (∀ x ∈ s.bac.inTx, x.givenUp = true ∨ x.item.Lawful)
  ∧ (s.bac.inTx.isSome = s.bac.transmitter.drives)
  ∧ (s.bac.transmitter.drives = true → s.bac.receiver = .blind ∧ s.bac.line.carrier = true)
  ∧ (s.bac.line = .off ↔ s.bac.transmitter = .off)
  ∧ (s.bac.line = .off ↔ s.bac.receiver = .off)

/-- The laws of the Hold Controller: the backlog reason is the backlog flag (R102), self-hold is active exactly under
its condition (R103), the renewal timer runs exactly while it is (R104, R106), and the requested quanta are 0 while it
is not (R106). -/
abbrev State.HoldControlLaw (s : State) : Prop :=
  s.hc.backlogReason = s.rcu.backlog
  ∧ s.hc.selfHold = s.selfHoldCondition
  ∧ s.hc.renewal.runs = s.hc.selfHold
  ∧ (s.hc.selfHold = false → s.hc.requested = 0)

/-- The laws of the configuration: the load state goes with the array state (R155), the committed set is valid whole
and the digest is its own (R156 to R158), and DATA runs at the committed rate from the first commit (R114). -/
abbrev State.ConfigLaw (s : State) : Prop :=
  (s.cs.load = .empty ↔ s.acu.state = .awaitingConfig)
  ∧ (s.cs.load = .reading ↔ s.acu.state = .loading)
  ∧ validate s.cs.committed = none
  ∧ s.cs.digest = digestOf s.cs.committed
  ∧ (s.bac.line = .off ↔ s.cs.load ≠ .committed)
  ∧ (s.bac.line = .off ∨ s.bac.line = .on (s.param .bitRate) s.bac.line.carrier)

/-- LOADING or AWAITING_CONFIG: no configuration is committed yet. -/
def ArrayState.unconfigured : ArrayState → Bool
  | .loading | .awaitingConfig => true
  | .configured | .listening | .joining | .member | .leaving => false

/-- LOADING, AWAITING_CONFIG or CONFIGURED: the gate is DETACHED (R2). -/
def ArrayState.offGate : ArrayState → Bool
  | .loading | .awaitingConfig | .configured => true
  | .listening | .joining | .member | .leaving => false

/-- Is the entry ACTIVE? -/
def Membership.isActive : Membership → Bool
  | .active _ => true
  | .absent | .pending _ | .departing _ _ => false

/-- The law of R21: how the self entry, J and L stand in each array state; in LOADING and AWAITING_CONFIG the whole
table is as a reset leaves it (R39). -/
abbrev State.SelfLaw (s : State) : Prop :=
  ((s.member s.ownId).hold = 0 ∧ (s.member s.ownId).missCount = 0 ∧ (s.member s.ownId).lastHeard = none)
  ∧ (s.acu.joinScan.isSome = (s.acu.state == .joining) ∧ s.acu.leaveScan.isSome = (s.acu.state == .leaving))
  ∧ (s.acu.drain = true → s.acu.state = .leaving)
  ∧ (s.acu.state.unconfigured = true → ∀ k : NodeId, s.member k = Member.absentEntry)
  ∧ (s.acu.state.inArray = false → (s.member s.ownId).membership = .absent)
  ∧ (s.acu.state = .joining → s.acu.joinScan.map Membership.pending = some (s.member s.ownId).membership)
  ∧ (s.acu.state = .member → (s.member s.ownId).membership.isActive = true)
  ∧ (s.acu.state = .leaving → s.acu.drain = true → (s.member s.ownId).membership = .absent)
  ∧ (s.acu.state = .leaving → s.acu.drain = false → (s.member s.ownId).membership.untilScan? = s.acu.leaveScan)

/-- The law of R2 on the gate driver state, with what DETACHED means for the timers and the take request, and that no take
request is set in LISTENING: the ACU sets one on entering JOINING (R5, R48). -/
abbrev State.GateLaw (s : State) : Prop :=
  (s.acu.state.offGate = true → s.stu.gate = .detached ∧ s.stu.take = .clear ∧ s.stu.guard = .stopped
    ∧ s.stu.stall = .stopped ∧ s.stu.stallFlag = false)
  ∧ (s.acu.state = .listening → s.stu.gate = .observing ∧ s.stu.take = .clear)
  ∧ (s.acu.state.inArray = true → s.stu.gate ≠ .detached)

/-- The laws of an OPEN entry: the own id is expected (R64), the present ids are expected ones, and the contributions
are one for each present id, in ascending order of id (R70, R79). -/
abbrev Entry.Lawful (own : NodeId) (e : Entry) : Prop :=
  inSet e.expected own = true
  ∧ missingSet e.present e.expected = 0
  ∧ ascendingIds (e.contributions.map (·.node)) = true
  ∧ setOf (fun k => (findContribution e.contributions k).isSome) = e.present

/-- The laws of the merge table (R62 to R64, R77): each OPEN entry is lawful and at most CLOSE_LAG scans behind the
current index, no two have the same scan, the current entry has the current index, and outside JOINING, MEMBER and
LEAVING no entry is OPEN. -/
abbrev State.MergeLaw (s : State) : Prop :=
  (∀ i : Slot, ∀ e ∈ s.mu.slots[i],
    e.Lawful s.ownId ∧ Scan.forward e.scan s.stu.index ≤ s.param .closeLag ∧ s.acu.state.inArray = true)
  ∧ (∀ i j : Slot, ∀ e ∈ s.mu.slots[i], ∀ f ∈ s.mu.slots[j], e.scan = f.scan → i = j)
  ∧ (∀ i ∈ s.mu.current, s.mu.slots[i].map (·.scan) = some s.stu.index)

/-- The laws of the sample port: a calibration is in progress only in CONFIGURED, MEMBER and JOINING (R59, R139), solo
pacing is on only during one in CONFIGURED (R10), the capture tag names no later start than the latest (R132), bits are held
clocked in CLOCKING alone (R133), and the count, the phase and INSEL go together (R140, R145). -/
abbrev State.SampleLaw (s : State) : Prop :=
  (s.calibrating = true → s.acu.state = .configured ∨ s.acu.state = .member ∨ s.acu.state = .joining)
  ∧ (s.stu.solo = true → s.acu.state = .configured ∧ s.calibrating = true)
  ∧ (∀ t ∈ s.spc.tag, t.serial ≤ s.stu.startSerial)
  ∧ (s.spc.capture ≠ .clocking → s.spc.clocked = [])
  ∧ s.spc.count ≤ 40
  ∧ (if s.calibrating then
      s.spc.phase = phaseAtCount s.spc.count ∧ s.spc.insel = inselAtCount s.spc.count
    else s.spc.count = 0 ∧ s.spc.insel = .normal)

/-- The law of R119 and R131: no buffered frame carries the own id, and with the line OFF nothing is buffered. -/
abbrev State.InboundLaw (s : State) : Prop :=
  (∀ f ∈ s.bac.inbound, f.sender ≠ s.ownId) ∧ (s.bac.line = .off → s.bac.inbound = [])

/-- The law of the image read in progress (R150): one bit is held for each rising edge of ECK after the first 24, and no edge
comes after the last cycle. -/
abbrev EepromPort.Lawful (p : EepromPort) : Prop :=
  p.bits.length = p.eckCycles + p.eckHigh.toNat - 24 ∧ p.eckCycles + p.eckHigh.toNat ≤ imageReadCycles p.image

/-- The law of the EEPROM port: in READING the image read stands lawfully (R149, R150). -/
abbrev State.ImageLaw (s : State) : Prop := s.cs.load = .reading → s.cs.eeprom.Lawful

/-- The laws of membership taken together, with that of the image read. -/
abbrev State.ArrayLaw (s : State) : Prop :=
  s.ConfigLaw ∧ s.SelfLaw ∧ s.GateLaw ∧ s.MergeLaw ∧ s.SampleLaw ∧ s.InboundLaw ∧ s.ImageLaw

/-- The commands that are transactions of the host port (R161, R165). -/
def isTransaction : Instr → Bool
  | .softReset _ | .calibrate | .join | .leave | .releaseRecord | .flushRecords | .suspendRecords | .resumeRecords
  | .commitConfig | .unknownCommand _ | .paramValueWrite _ | .recordDataRead | .recordPointerWrite _
  | .projDescWrite _ | .memberSelWrite _ | .memberViewRead _ | .mergeSelWrite _ | .mergeViewRead _ | .eventsWrite _
  | .eventMaskWrite _ | .statValueWrite _ | .registerWrite _ _ => true
  | .pinReset _ | .softResetTakesEffect _ | .boundary _ | .guardExpiry | .scanPeriodExpiry | .gateFault
  | .soloBoundary | .stallTimerExpiry | .listenTimerExpiry _ | .rosterTaken | .holdTaken | .holdCountdownExpiry _
  | .missReport | .renewalExpiry | .freezeChange _ | .scanFrameTaken | .receivedFrameEnd _ | .accessWaitComplete
  | .txSuccess | .collision _ | .jamEnd _ | .backoffEnd | .convertPulseEnd | .channelReady _ | .captureComplete _
  | .sampleTimeout | .imageReadEnd _ | .gateLow | .carrierStart | .lineIdle | .resetnRelease => false

/-- The host command that a command of the block is, if it is one: by a row of its own, or as a word written to COMMAND
(R165, log 21). -/
def hostCommandOf : Instr → Option HostCommand
  | .join => some .join
  | .leave => some .leave
  | .calibrate => some .calibrate
  | .releaseRecord => some .releaseRecord
  | .flushRecords => some .flushRecords
  | .suspendRecords => some .suspendRecords
  | .resumeRecords => some .resumeRecords
  | .commitConfig => some .commitConfig
  | .softReset _ => some .softReset
  | .unknownCommand code => commandOfWord code
  | .registerWrite address value => if address = 0x04 then commandOfWord value else none
  | _ => none

/-- The commands that can reset the part: PIN_RESET, SOFT_RESET in either spelling, and SOFT_RESET_TAKES_EFFECT. -/
def canReset : Instr → Bool
  | .pinReset _ | .softResetTakesEffect _ => true
  | c => hostCommandOf c = some .softReset

/-- R166: what CMD_RESULT holds after the answer `r`: while a soft reset is pending the answer is not placed. -/
def State.resultAfter (s : State) (r : CommandResult) : CommandResult :=
  if s.bac.resetPending then s.hpu.result else r

/-- The port's own state once it has taken the command `c` with the answer `r` (R161, R165, R166). -/
def State.portAfter (s : State) (c : HostCommand) (r : CommandResult) : Hpu :=
  { s.hpu with transaction := .done, lastCode := BitVec.ofNat 32 c.code, result := s.resultAfter r }

/-- The values the reset rules give every unit (R19, R39, R40, R84, R101, R112, R131, R147, R160, R173), but for what
depends on the kind of reset and for the levels of the pins. -/
structure State.IsReset (cfgsrc : Bool) (t : State) : Prop where
  stu : t.stu.gate = .detached ∧ t.stu.guard = .stopped ∧ t.stu.take = .clear ∧ t.stu.index = 0
    ∧ t.stu.period = .stopped ∧ t.stu.formed = false ∧ t.stu.stall = .stopped ∧ t.stu.stallFlag = false
    ∧ t.stu.solo = false ∧ t.stu.time = 0
  ru : (∀ k : NodeId, (t.member k).membership = .absent ∧ (t.member k).missCount = 0 ∧ (t.member k).hold = 0
    ∧ (t.member k).lastHeard = none) ∧ t.ru.selector = 0
  acu : t.acu.state = (if cfgsrc then .loading else .awaitingConfig) ∧ t.acu.joinScan = none ∧ t.acu.leaveScan = none
    ∧ t.acu.listen = .stopped ∧ t.acu.admission = none ∧ t.acu.matchingSeen = false ∧ t.acu.mismatchingSeen = false
    ∧ t.acu.refusalPending = false ∧ t.acu.drain = false ∧ t.acu.reason = .none
  mu : (∀ i : Slot, t.mu.slots[i] = none) ∧ t.mu.current = none ∧ t.mu.suspended = false ∧ t.mu.selector = 0
  rcu : t.rcu.queue = [] ∧ t.rcu.pointer = 0 ∧ t.rcu.projFirst = 0 ∧ t.rcu.projCount = 0 ∧ t.rcu.backlog = false
  hc : t.hc.backlogReason = false ∧ t.hc.selfHold = false ∧ t.hc.renewal = .stopped ∧ t.hc.requested = 0
    ∧ t.hc.lastSent = 0
  bac : t.bac.line = .off ∧ t.bac.receiver = .off ∧ t.bac.transmitter = .off ∧ t.bac.inbound = []
    ∧ t.bac.holdItem = none ∧ t.bac.rosterItem = none ∧ t.bac.scanItems = [] ∧ t.bac.inTx = none
    ∧ t.bac.busyMark = false ∧ t.bac.backoff = 0 ∧ t.bac.resetPending = false
  spc : t.spc.capture = .idle ∧ t.spc.tag = none ∧ t.spc.clocked = [] ∧ (∀ c : Channel, t.spc.ready[c] = false
    ∧ t.spc.raw[c] = none ∧ t.spc.table[c] = ⟨0, 65536⟩ ∧ t.spc.sums[c] = ⟨0, 0⟩) ∧ t.spc.phase = .idle ∧ t.spc.count = 0
    ∧ t.spc.result = .none ∧ t.spc.insel = .normal
  cs : t.cs.written = paramDefaults ∧ t.cs.committed = paramDefaults ∧ t.cs.digest = digestOf paramDefaults
    ∧ t.cs.load = (if cfgsrc then .reading else .empty) ∧ t.cs.error = .none ∧ t.cs.selector = 0
    ∧ t.cs.cfgsrc = cfgsrc ∧ t.cs.eeprom.eckHigh = false ∧ t.cs.eeprom.eckCycles = 0 ∧ t.cs.eeprom.bits = []
  hpu : t.hpu.events = 0 ∧ t.hpu.mask = 0 ∧ t.hpu.result = ⟨.accepted, .none, .nothing⟩ ∧ t.hpu.lastCode = 0
    ∧ (∀ c : Counter, t.counter c = 0) ∧ t.hpu.statSel = 0 ∧ t.hpu.statMode = .direct
    ∧ t.hpu.memberCopy.membership = .absent ∧ t.hpu.mergeCopy = ⟨none, false⟩

/-- Between the two states exactly the counters of the list have advanced, each by one for each place it has in the
list (R171). -/
abbrev State.CountsExactly (s t : State) (counted : List Counter) : Prop :=
  ∀ c : Counter, t.counter c = s.counter c + BitVec.ofNat 32 (counted.count c)

/-- Between the two states exactly the flags of the listed events have been set; a flag set before stays set (R168). -/
abbrev State.RaisesExactly (s t : State) (raised : List Event) : Prop :=
  ∀ e : Event, t.eventSet e = (s.eventSet e || raised.contains e)

/-- The Host Port Unit is as before but for its event flags and its counters. -/
abbrev State.PortKept (s t : State) : Prop := t.hpu = { s.hpu with events := t.hpu.events, counters := t.hpu.counters }

/-! ### The member table at a boundary, by the order of the blocks (R22, R28, R64; log 5) -/

/-- The entry `m` of node `k` once a list of deadline reports has been taken, oldest first (R28, R29). -/
def State.afterReports (s : State) (reports : List MissReport) (k : NodeId) (m : Member) : Member :=
  reports.foldl (fun m r => m.afterReport (s.param .missLimit) s.ownId r k) m

/-- The entry of peer `k` as the MU reads it for eligibility at the boundary that starts `n`: `made` are the reports of the
MU's own closes there, and `advances` says whether the RU takes this boundary. -/
def State.peerAtMu (s : State) (o : BoundaryOrder) (advances : Bool) (n : Scan) (made : List MissReport) (k : NodeId) :
    Member :=
  let reported := if o.ruBeforeMu && o.reportsBeforeRu then s.afterReports s.ru.reports k (s.member k) else s.member k
  let advanced := if o.ruBeforeMu && advances then reported.advance n else reported
  let waiting := if o.ruBeforeMu && o.reportsBeforeRu then made else s.ru.reports ++ made
  if o.reportsFirst then s.afterReports waiting k advanced else advanced

/-- The entry of peer `k` once every block has taken the boundary that starts `n`. -/
def State.peerAfter (s : State) (o : BoundaryOrder) (advances : Bool) (n : Scan) (made : List MissReport) (k : NodeId) :
    Member :=
  let atMu := s.peerAtMu o advances n made k
  if o.ruBeforeMu then atMu
  else
    let reported :=
      if o.reportsBeforeRu && !o.reportsFirst then s.afterReports (s.ru.reports ++ made) k atMu else atMu
    if advances then reported.advance n else reported

/-- The reports still to be taken once every block has taken the boundary. -/
def State.reportsAfter (s : State) (o : BoundaryOrder) (made : List MissReport) : List MissReport :=
  if o.reportsFirst then []
  else if o.reportsBeforeRu then (if o.ruBeforeMu then made else [])
  else s.ru.reports ++ made

/-- A member entry with every scan number it has moved on by `d` (R33). -/
def Member.movedBy (d : Scan) (m : Member) : Member :=
  { m with
    membership := match m.membership with
      | .absent => .absent
      | .pending f => .pending (f + d)
      | .active f => .active (f + d)
      | .departing f u => .departing (f + d) (u + d)
    lastHeard := m.lastHeard.map (· + d) }

/-- The OPEN entries other than the current one, oldest first (R76, R78). -/
def Mu.othersOldestFirst (m : Mu) : List Entry :=
  (m.oldestFirst fun i _ => decide (m.current ≠ some i)).filterMap fun i => m.slots[i]

/-- The OPEN entries, oldest first (R77, R78). -/
def Mu.entriesOldestFirst (m : Mu) : List Entry :=
  (m.oldestFirst fun _ _ => true).filterMap fun i => m.slots[i]

/-- The entries of the merge table with scan `n`, in the order of their slots. -/
def Mu.entriesAt (m : Mu) (n : Scan) : List Entry := (m.slots.toList.filterMap id).filter fun e => e.scan == n

/-- Does every entry of the merge table have scan `n`? -/
def Mu.onlyAt (m : Mu) (n : Scan) : Bool := m.slots.toList.all fun x => x.all fun e => e.scan == n

end Sys2Proof.Machine
end

