-- ==== Sys2Proof/Certificates/Slice0/Obligations.lean ====
section
/-! DEFINITION. The statements for the provers, each a Prop named for what it states. -/

open Sys2Proof Sys2Proof.Machine

/-! ### The queue of commands, and resets -/

/-- A step takes the command at the front of the queue and is that command's own effect on the rest. -/
def Obligations.StepRunsFrontCommand : Prop :=
  ∀ (c : Instr) (rest : List Instr) (s : State), step (s.withPending (c :: rest)) = exec c (s.withPending rest)

/-- R18, with the model's choices of log 2 and log 32: with no command waiting, a step takes the oldest pin change that
waits; with none, it queues an event of the part's own that is due, in one of the cases listed here (R4, R10, R14, R16, R31,
R46, R105, R114, R116, R120, R124 to R126, R129, R132 to R134, R150; the last fall of a hold field is log 23); and with none
due one microsecond passes in every unit, which is two edges of ECK while an image is read (R150, log 33) and, in CLOCKING,
the pulses of SCLK of that microsecond, 8 up to the W-th (R133, log 36). Which of several due events is queued first is log 2
too. -/
def Obligations.StepWithEmptyQueue : Prop :=
  ∀ s : State, s.pending = [] →
    let rate := match s.bac.line with | .off => 0 | .on mbit _ => mbit
    let ran := fun (timer : Timer) (limit : Nat) => ∃ us, timer = .running us ∧ limit ≤ us
    let due : Instr → Prop := fun c => match c with
      | .softResetTakesEffect level => s.bac.resetPending = true ∧ s.bac.inTx = none ∧ level = s.cs.cfgsrc
      | .boundary order => order = {} ∧ s.stu.gate = .released .wait ∧ s.stu.gateHigh = true
      | .missReport => s.ru.reports ≠ []
      | .scanFrameTaken => ∃ f rest, s.bac.inbound = .scan f :: rest
      | .rosterTaken => ∃ r rest, s.bac.inbound = .roster r :: rest
      | .holdTaken => ∃ k q rest, s.bac.inbound = .hold k q :: rest
      | .soloBoundary =>
        s.stu.solo = true ∧ s.stu.period = .expired ∧ (s.stu.formed = true ∨ s.stu.soloMade = false)
      | .guardExpiry => ran s.stu.guard 2
      | .scanPeriodExpiry => ran s.stu.period (s.param .scanPeriod)
      | .stallTimerExpiry => ran s.stu.stall (1000 * s.param .stallLimit)
      | .listenTimerExpiry fell =>
        fell = false ∧ s.acu.state = .listening ∧ ran s.acu.listen (10000 * s.param .listenTimeout)
      | .renewalExpiry => ran s.hc.renewal (50 * s.param .holdQuanta)
      | .imageReadEnd edi => s.acu.state = .loading ∧ s.cs.eeprom.readOver = true ∧ edi = s.cs.eeprom.edi
      | .convertPulseEnd => s.spc.capture = .strobe ∧ 1 ≤ s.spc.elapsed
      | .captureComplete coming =>
        coming = [] ∧ s.spc.capture = .clocking ∧ s.param .width ≤ s.spc.clocked.length
      | .sampleTimeout => s.spc.capture = .waiting ∧ s.param .sampleTimeout ≤ s.spc.elapsed
      | .holdCountdownExpiry k => (s.member k).hold = 1 ∧ 100 ≤ (s.member k).holdPhase
      | .lineIdle => s.bac.receiver = .seeking ∧ s.bac.line = .on rate false ∧ 2 ≤ s.bac.idleTime * rate
      | .txSuccess => s.bac.transmitter = .sending
          ∧ ∀ x, s.bac.inTx = some x → 16 + 8 * x.frame.length ≤ s.bac.phaseTime * rate
      | .jamEnd busy => busy = false ∧ s.bac.transmitter = .jamming ∧ 32 ≤ s.bac.phaseTime * rate
      | .backoffEnd => s.bac.transmitter = .backoff ∧ 64 * s.bac.backoff ≤ s.bac.phaseTime * rate
      | .accessWaitComplete =>
        s.bac.transmitter = .accessWait ∧ s.bac.line.carrier = false ∧ 48 ≤ s.bac.idleTime * rate
      | _ => False
    let later : Timer → Timer := fun timer => match timer with | .running us => .running (us + 1) | x => x
    (∀ e rest, s.pins = e :: rest → step s = .next (pinEvent e (s.withPins rest)))
    ∧ (∀ c, s.pins = [] → s.nextDue = some c → due c ∧ step s = .next (s.withPending [c]))
    ∧ (s.pins = [] → s.nextDue = none → (∀ c, ¬due c) ∧ ∃ t, step s = .next t
        ∧ t = { s with stu := t.stu, ru := { s.ru with members := t.ru.members },
                       hc := { s.hc with renewal := later s.hc.renewal }, bac := t.bac,
                       spc := { s.spc with
                         elapsed := s.spc.elapsed + 1
                         clockTime := if s.spc.capture = .clocking then s.spc.clockTime + 1 else s.spc.clockTime
                         clocked := if s.spc.capture = .clocking then
                             s.spc.clocked ++ List.replicate
                               (min (s.param .width) (8 * (s.spc.clockTime + 1)) - s.spc.clocked.length) s.spc.sdata
                           else s.spc.clocked },
                       cs := s.cs.eckEdge.eckEdge,
                       acu := { s.acu with listen := later s.acu.listen } }
        ∧ t.stu = { s.stu with time := s.stu.time + 1, guard := later s.stu.guard, period := later s.stu.period,
                               stall := later s.stu.stall }
        ∧ t.bac = { s.bac with phaseTime := s.bac.phaseTime + 1,
                               idleTime := if s.bac.line.carrier then 0 else s.bac.idleTime + 1 }
        ∧ ∀ k : NodeId, t.member k =
            if (s.member k).hold = 0 then s.member k
            else if (s.member k).hold ≠ 1 ∧ 100 ≤ (s.member k).holdPhase + 1 then
              { s.member k with hold := (s.member k).hold - 1, holdPhase := 0 }
            else { s.member k with holdPhase := (s.member k).holdPhase + 1 })

/-- R40, R130, R162, R167: PIN_RESET acts at once in every state, puts the host port in IDLE with HSDO at high impedance and
closes it, and HIRQ is high. While RESETn is low the port takes no transaction; RESETN_RELEASE opens it and changes nothing
else. (That the levels of GATE, FREEZE, SDATA, EDI and HSELn stand through the reset is log 6; that what waits in the two
queues stands is log 29.) -/
def Obligations.PinResetResetsEveryUnit : Prop :=
  (∀ (cfgsrc : Bool) (s : State), ∃ t, exec (.pinReset cfgsrc) s = .next t
      ∧ t.IsReset cfgsrc ∧ t.hpu.transaction = .idle s.hpu.transaction.hselnLow ∧ t.hpu.resetnLow = true
      ∧ t.hsdo = .highZ ∧ t.hirqLow = false
      ∧ t.stu.gateHigh = s.stu.gateHigh ∧ t.hc.freezeReason = s.hc.freezeReason ∧ t.spc.sdata = s.spc.sdata
      ∧ t.cs.eeprom.edi = s.cs.eeprom.edi
      ∧ t.pending = s.pending ∧ t.pins = s.pins)
  ∧ (∀ s : State,
      exec .resetnRelease s = .next { s with hpu := { s.hpu with resetnLow := false } }
      ∧ (s.hpu.resetnLow = true → ∀ c : Instr, isTransaction c = true → exec c s = .next s))

/-- R129, R149, R166, R167, R40: SOFT_RESET takes effect at once with no frame in transmission; with one it is pending, and a
second leaves the part as it is but for the level of CFGSRC noted with it (log 27). A pending soft reset takes effect when no
frame is in transmission, and the host transaction goes on; in every other case SOFT_RESET_TAKES_EFFECT changes nothing (log
13). (That the levels of GATE, FREEZE, SDATA and EDI stand through the reset is log 6; that what waits in the two queues
stands is log 29.) -/
def Obligations.SoftResetAtOnceOrPending : Prop :=
  (∀ (cfgsrc : Bool) (s : State), s.hpu.resetnLow = false →
      (s.bac.inTx = none → ∃ t, exec (.softReset cfgsrc) s = .next t
        ∧ t.IsReset cfgsrc ∧ t.hpu.transaction = .done ∧ t.hpu.resetnLow = false ∧ t.hirqLow = false
        ∧ t.stu.gateHigh = s.stu.gateHigh ∧ t.hc.freezeReason = s.hc.freezeReason ∧ t.spc.sdata = s.spc.sdata
        ∧ t.cs.eeprom.edi = s.cs.eeprom.edi
        ∧ t.pending = s.pending ∧ t.pins = s.pins)
      ∧ (s.bac.inTx.isSome = true → s.bac.resetPending = false →
        exec (.softReset cfgsrc) s = .next { s with
          hpu := { s.hpu with transaction := .done, lastCode := 9, result := ⟨.pending, .none, .command .softReset⟩ }
          bac := { s.bac with resetPending := true }
          cs := { s.cs with cfgsrc := cfgsrc } })
      ∧ (s.bac.inTx.isSome = true → s.bac.resetPending = true →
        exec (.softReset cfgsrc) s = .next { s with
          hpu := { s.hpu with transaction := .done, lastCode := 9 }, cs := { s.cs with cfgsrc := cfgsrc } }))
  ∧ (∀ (cfgsrc : Bool) (s : State),
      (s.bac.resetPending = true → s.bac.inTx = none → ∃ t, exec (.softResetTakesEffect cfgsrc) s = .next t
        ∧ t.IsReset cfgsrc ∧ t.hpu.transaction = s.hpu.transaction ∧ t.hpu.readWord = s.hpu.readWord
        ∧ t.hpu.resetnLow = s.hpu.resetnLow ∧ t.hirqLow = false
        ∧ t.stu.gateHigh = s.stu.gateHigh ∧ t.hc.freezeReason = s.hc.freezeReason ∧ t.spc.sdata = s.spc.sdata
        ∧ t.cs.eeprom.edi = s.cs.eeprom.edi
        ∧ t.pending = s.pending ∧ t.pins = s.pins)
      ∧ (s.bac.resetPending = false ∨ s.bac.inTx.isSome = true →
        exec (.softResetTakesEffect cfgsrc) s = .next s))

/-! ### The scan gate -/

/-- R3, R132, R134, R140, R143: what a boundary does to the sample port, in LISTENING, JOINING, MEMBER and LEAVING: it starts a
capture, cuts one in progress, whose cut drops the bits clocked, counts a sample fault and ends a calibration that was to sum
it, and gives the next calibration count with its phase and INSEL (at a joiner's refusal, which ends a calibration, by the
order of log 5). And what it does to the STU, where the ACU neither admits the node, refuses it nor takes it into its drain.
(The number that names the capture start, and a take request asked for becoming due, are log 10; the level noted is log 7.) -/
def Obligations.BoundaryStartsScan : Prop :=
  ∀ (order : BoundaryOrder) (s : State), s.SampleLaw → s.stu.takesBoundary = true →
    (s.acu.state = .listening ∨ s.acu.state.inArray = true) →
    let refused := s.acu.state = .joining ∧ s.acu.refusalPending = true
    let stays := s.acu.state = .member ∨ (s.acu.state = .joining ∧ s.acu.refusalPending = false)
      ∨ (s.acu.state = .listening ∧ s.acu.admission = none)
      ∨ (s.acu.state = .leaving ∧ s.acu.drain = false
          ∧ ∀ l, s.acu.leaveScan = some l → atOrBehind (s.stu.index + 1) l = false)
    let cuts := decide (s.spc.capture ≠ .idle)
    let summed := (tagCount s.spc.tag).any fun n => decide (5 ≤ n ∧ n ≤ 20) || decide (25 ≤ n ∧ n ≤ 40)
    let fails := cuts && s.calibrating && summed
    let counts := s.calibrating && !fails && decide (s.spc.count < 40)
    let n := s.spc.count + 1
    let notReady := (List.finRange 4).find? fun c => decide (c.val < s.param .channels) && !s.spc.ready[c]
    ∃ t, exec (.boundary order) s = .next t
      ∧ (stays → t.stu = { s.stu with
          gate := if s.stu.gate = .released .wait then .released .guard else s.stu.gate
          gateHigh := true
          guard := .running 0
          take := if s.stu.take = .clear then .clear else .due
          index := s.stu.index + 1
          period := .running 0
          formed := false
          stall := .stopped
          stallFlag := false
          boundaryTime := s.stu.time
          startSerial := s.stu.startSerial + 1 })
      ∧ t.counter .boundaries = s.counter .boundaries + 1
      ∧ (¬refused → t.spc = { s.spc with
          capture := .strobe
          tag := some ⟨.boundary, s.stu.startSerial + 1, if counts then some n else none⟩
          ready := Vector.replicate 4 false
          clocked := []
          raw := Vector.replicate 4 none
          elapsed := 0
          count := if fails then 0 else if counts then n else s.spc.count
          phase :=
            if fails then .idle
            else if counts then
              (if n ≤ 4 then .zeroSettle else if n ≤ 20 then .zeroAccum else if n ≤ 24 then .refSettle else .refAccum)
            else s.spc.phase
          insel :=
            if fails then .normal else if counts then (if n ≤ 20 then .zero else .reference) else s.spc.insel
          sums := if fails then Vector.replicate 4 ⟨0, 0⟩ else s.spc.sums
          result := if fails then .fail .fault (notReady.getD 0) else s.spc.result }
          ∧ t.eventSet .calDone = (s.eventSet .calDone || fails))
      ∧ (refused → t.spc.capture = .strobe ∧ t.spc.elapsed = 0 ∧ t.spc.clocked = [] ∧ t.spc.sdata = s.spc.sdata
          ∧ (∀ c : Channel, t.spc.ready[c] = false ∧ t.spc.raw[c] = none)
          ∧ t.spc.tag.map (fun g => (g.kind, g.serial)) = some (.boundary, s.stu.startSerial + 1))
      ∧ t.counter .sampleFaults = s.counter .sampleFaults + (if cuts then 1 else 0)
      ∧ t.cs = s.cs ∧ t.pending = s.pending ∧ t.pins = s.pins

/-- R63, R64, R65, R75, R78, R79: which ids the node windows cover; and at a boundary of a member, of a joiner that is not
refused, or of a leaver before L, the entry at its deadline closes PARTIAL and is reported, and, where the node is eligible
for the new scan, an entry for it opens in the lowest FREE slot with the ids that are eligible and in a window, and the own
id; else none opens. Eligibility is read of the table as the order of the RU, its reports and the MU leaves it (log 5, R64);
the list of reports is log 11. -/
def Obligations.BoundaryClosesAndOpensEntries : Prop :=
  (∀ (s : State) (k : NodeId),
    let covers := fun start range : Param => s.param start ≤ k.val ∧ k.val < s.param start + s.param range
    s.inWindows k = true ↔
      (s.param .win0Range = 0 ∧ s.param .win1Range = 0 ∧ s.param .win2Range = 0)
      ∨ covers .win0Start .win0Range ∨ covers .win1Start .win1Range ∨ covers .win2Start .win2Range)
  ∧ (∀ (order : BoundaryOrder) (s : State), s.ArrayLaw → s.stu.takesBoundary = true →
    let n := s.stu.index + 1
    (s.acu.state = .member ∨ (s.acu.state = .joining ∧ s.acu.refusalPending = false)
      ∨ (s.acu.state = .leaving ∧ s.acu.drain = false ∧ ∀ l, s.acu.leaveScan = some l → atOrBehind n l = false)) →
    let left := fun j : Slot => (s.mu.slots[j]).filter fun e => e.scan != n - BitVec.ofNat 24 (s.param .closeLag) - 1
    let closed := s.mu.entriesAt (n - BitVec.ofNat 24 (s.param .closeLag) - 1)
    let made := closed.map fun e => (⟨e.expected, e.present⟩ : MissReport)
    ∃ t, exec (.boundary order) s = .next t
      ∧ (s.eligible s.ownId n = true → ∃ (i : Slot) (expected : NodeSet), left i = none ∧ t.mu.current = some i
          ∧ t.mu.slots[i] = some ⟨n, expected, 0, [], s.stu.time⟩
          ∧ (∀ k : NodeId, inSet expected k =
              (decide (k = s.ownId)
                || ((s.peerAtMu order true n made k).membership.eligible n && s.inWindows k)))
          ∧ (∀ j : Slot, j < i → t.mu.slots[j].isSome = true)
          ∧ (∀ j : Slot, j ≠ i → t.mu.slots[j] = left j))
      ∧ (s.eligible s.ownId n = false → t.mu.current = none ∧ ∀ j : Slot, t.mu.slots[j] = left j)
      ∧ t.ru.reports = s.reportsAfter order made
      ∧ t.counter .recordsPartial = s.counter .recordsPartial + BitVec.ofNat 32 closed.length
      ∧ (s.mu.suspended = false →
          t.rcu.queue = s.rcu.queue ++ closed.map (fun e => e.toRecord .partialClose s.stu.time)
          ∧ t.counter .recordsDiscarded = s.counter .recordsDiscarded)
      ∧ (s.mu.suspended = true →
          t.rcu = s.rcu
          ∧ t.counter .recordsDiscarded = s.counter .recordsDiscarded + BitVec.ofNat 32 closed.length)
      ∧ (s.acu.state ≠ .joining → t.acu = s.acu)
      ∧ t.cs = s.cs ∧ t.mu.suspended = s.mu.suspended ∧ t.mu.selector = s.mu.selector)

/-- R22, R28, R34: at a boundary in JOINING, MEMBER or LEAVING the RU advances every peer's entry against the new index,
raises MEMBER_CHANGE when an entry becomes ABSENT, and requests a ROSTER at a scheduled boundary. Where the ACU's own move
to CONFIGURED comes first in the sender's order (log 5), the RU takes no boundary; the reports it takes at the boundary come
where that order puts them (the list is log 11). (A leave scan at the tie distance, which R11 leaves out here, is left
out.) -/
def Obligations.BoundaryAdvancesPeers : Prop :=
  (∀ (n : Scan) (m : Member), m.advance n = match m.membership with
    | .pending f => if atOrBehind n f then { m with membership := .active f } else m
    | .departing _ u => if atOrBehind n u then ⟨.absent, 0, 0, 0, none⟩ else m
    | .absent | .active _ => m)
  ∧ (∀ (order : BoundaryOrder) (s : State), s.ArrayLaw → s.stu.takesBoundary = true → s.acu.state.inArray = true →
      let n := s.stu.index + 1
      (∀ l, s.acu.leaveScan = some l → Scan.forward n l ≠ Scan.tieDistance) →
      let deadline := n - BitVec.ofNat 24 (s.param .closeLag) - 1
      let refused := decide (s.acu.state = .joining) && s.acu.refusalPending
      let reaches := !s.acu.drain && s.acu.leaveScan.any (atOrBehind n)
      let drained := decide (s.acu.state = .leaving) && s.mu.onlyAt deadline
        && (reaches || (s.acu.drain && !s.mu.tableEmpty))
      let advances :=
        if refused then !order.acuPrecedesRu
        else if drained then
          (if s.acu.drain then order.ruBeforeMu
           else !order.acuPrecedesRu || (order.ruBeforeMu && !s.mu.tableEmpty))
        else true
      let made := if refused && order.acuPrecedesMu then [] else
        (s.mu.entriesAt deadline).map fun e => (⟨e.expected, e.present⟩ : MissReport)
      let requests := (decide (s.acu.state ≠ .leaving) || s.acu.leaveScan.any fun l => behind l n)
        && decide ((n.toNat + 7 * s.ownId.val) % s.param .rosterInterval = 0)
      ∃ t, exec (.boundary order) s = .next t
        ∧ (∀ k : NodeId, k ≠ s.ownId → t.member k = s.peerAfter order advances n made k)
        ∧ t.ru.reports = s.reportsAfter order made
        ∧ t.eventSet .memberChange = (s.eventSet .memberChange || decide (∃ k : NodeId, k ≠ s.ownId
            ∧ (s.member k).membership ≠ .absent ∧ (t.member k).membership = .absent))
        ∧ t.bac.rosterItem =
            if refused || drained then none
            else if requests then some (s.bac.rosterItem.getD ⟨0, false⟩)
            else s.bac.rosterItem)

/-- R51, R63, R77 to R80: a boundary in JOINING makes the node a member once J has come, keeps it joining while J is ahead, and
refuses it for an identity conflict, in either order of that refusal and this boundary's guard expiry (R4, R50; the order is
the sender's, log 5): with the guard expiry first GATE is pulled low and let go (the level noted is log 7). At the refusal
every entry left of a former membership closes FLUSHED, and their records join the queue oldest first, or are discarded and
counted while records are suspended; where the MU takes the boundary before the ACU (log 5), the entry at its deadline closes
PARTIAL there, and an entry for the new scan opens where the node is eligible for it, with the expected set of R64, and is
flushed too. -/
def Obligations.BoundaryInJoining : Prop :=
  ∀ (order : BoundaryOrder) (s : State) (j : Scan), s.stu.takesBoundary = true → s.acu.state = .joining →
    s.acu.joinScan = some j →
    (s.acu.refusalPending = false → atOrBehind (s.stu.index + 1) j = true →
      ∃ t, exec (.boundary order) s = .next t
        ∧ t.acu = { s.acu with state := .member, joinScan := none }
        ∧ (t.member s.ownId).membership = .active j ∧ t.eventSet .joined = true)
    ∧ (s.acu.refusalPending = false → atOrBehind (s.stu.index + 1) j = false →
      ∃ t, exec (.boundary order) s = .next t ∧ t.acu = s.acu ∧ t.member s.ownId = s.member s.ownId)
    ∧ (s.acu.refusalPending = true →
      ∃ t, exec (.boundary order) s = .next t
        ∧ t.acu.state = .configured ∧ t.acu.reason = .idConflict ∧ t.acu.joinScan = none
        ∧ t.acu.refusalPending = false ∧ t.eventSet .joinRefused = true
        ∧ t.eventSet .joined = s.eventSet .joined
        ∧ (t.member s.ownId).membership = .absent ∧ t.stu.gate = .detached ∧ t.stu.take = .clear
        ∧ t.stu.gateHigh = !(order.guardFirst && decide (s.stu.gate ≠ .observing ∨ s.stu.take ≠ .clear))
        ∧ t.calibrating = false ∧ t.bac.rosterItem = none
        ∧ (∀ i : Slot, t.mu.slots[i] = none) ∧ t.mu.current = none
        ∧ (s.ArrayLaw →
          let n := s.stu.index + 1
          let deadline := n - BitVec.ofNat 24 (s.param .closeLag) - 1
          let opens := !order.acuPrecedesMu && s.eligible s.ownId n
          let made := (s.mu.entriesAt deadline).map fun e => (⟨e.expected, e.present⟩ : MissReport)
          let kind := fun e : Entry =>
            if order.acuPrecedesMu = true ∨ e.scan ≠ deadline then CloseKind.flushed else .partialClose
          (s.mu.suspended = false → ∃ expected : NodeSet,
            (∀ k : NodeId, inSet expected k =
              (decide (k = s.ownId)
                || ((s.peerAtMu order true n made k).membership.eligible n && s.inWindows k)))
            ∧ t.rcu.queue = s.rcu.queue ++ s.mu.entriesOldestFirst.map (fun e => e.toRecord (kind e) s.stu.time)
              ++ (if opens then [⟨n, .flushed, expected, 0, s.stu.time, s.stu.time, []⟩] else [])
            ∧ t.counter .recordsDiscarded = s.counter .recordsDiscarded)
          ∧ (s.mu.suspended = true → t.rcu = s.rcu ∧ t.counter .recordsDiscarded = s.counter .recordsDiscarded
              + BitVec.ofNat 32 (s.mu.entriesOldestFirst.length + if opens then 1 else 0))))

/-- R46, R48, R26, R64: a boundary in LISTENING restarts the listen timer, or admits the node by the roster it holds. (The
reports that the RU takes at the boundary come where the sender's order puts them, log 5, and the list is log 11; the take
request stands as asked for, log 10.) -/
def Obligations.BoundaryInListening : Prop :=
  ∀ (order : BoundaryOrder) (s : State), s.ArrayLaw → s.stu.takesBoundary = true → s.acu.state = .listening →
    let taken := order.reportsFirst || order.reportsBeforeRu
    let left := if taken then [] else s.ru.reports
    (s.acu.admission = none →
      ∃ t, exec (.boundary order) s = .next t
        ∧ t = { s with stu := t.stu, spc := t.spc, hpu := t.hpu, ru := { s.ru with members := t.ru.members, reports := left },
                       acu := { s.acu with listen := .running 0 } }
        ∧ t.stu.index = s.stu.index + 1 ∧ t.stu.gate = .observing
        ∧ (∀ k : NodeId, t.member k = if taken then s.afterReports s.ru.reports k (s.member k) else s.member k)
        ∧ t.counter .boundaries = s.counter .boundaries + 1)
    ∧ (∀ r, s.acu.admission = some r →
      let j := r.currentScan + 1 + BitVec.ofNat 24 (s.param .joinLead)
      ∃ t, exec (.boundary order) s = .next t
        ∧ t.acu = { s.acu with state := .joining, joinScan := some j, listen := .stopped, admission := none,
                               matchingSeen := false, mismatchingSeen := false }
        ∧ t.stu.index = r.currentScan + 1 ∧ t.stu.take = .asked ∧ t.stu.gate = .observing
        ∧ t.stu.guard = .running 0
        ∧ t.member s.ownId = { membership := .pending j }
        ∧ (∀ k : NodeId, k ≠ s.ownId →
            let seeded : Member := match r.list.find? (·.id == k) with
              | none => Member.absentEntry
              | some e => { membership := match e.state with
                  | .pending => .pending e.scan
                  | .active => .active e.scan
                  | .departing => .departing (r.currentScan + 1) e.scan }
            t.member k = if order.reportsAfterAcu then s.afterReports s.ru.reports k seeded else seeded)
        ∧ t.ru.reports = left
        ∧ t.mu = s.mu ∧ t.rcu = s.rcu ∧ t.bac.rosterItem.isSome = true
        ∧ t.counter .boundaries = s.counter .boundaries + 1)

/-- R56, R57, R17: a boundary in LEAVING. Once L has come the drain is on, or is complete if no entry is left OPEN; a
drain ends at the boundary that closes the last entry; before L nothing changes at the ACU. (A scan at the tie distance,
which R11 leaves out here, is left out.) -/
def Obligations.BoundaryInLeaving : Prop :=
  ∀ (order : BoundaryOrder) (s : State) (l : Scan), s.ArrayLaw → s.stu.takesBoundary = true →
    s.acu.state = .leaving → s.acu.leaveScan = some l →
    let n := s.stu.index + 1
    let deadline := n - BitVec.ofNat 24 (s.param .closeLag) - 1
    Scan.forward n l ≠ Scan.tieDistance →
    (s.acu.drain = false → atOrBehind n l = true → s.mu.onlyAt deadline = false →
      ∃ t, exec (.boundary order) s = .next t
        ∧ t.acu = { s.acu with drain := true } ∧ t.member s.ownId = { membership := .absent }
        ∧ t.stu.stall = .running 0 ∧ t.stu.index = n)
    ∧ ((s.acu.drain = false ∧ atOrBehind n l = true) ∨ (s.acu.drain = true ∧ s.mu.tableEmpty = false) →
      s.mu.onlyAt deadline = true →
      ∃ t, exec (.boundary order) s = .next t
        ∧ t.acu = { s.acu with state := .configured, joinScan := none, leaveScan := none, listen := .stopped,
                               admission := none, matchingSeen := false, mismatchingSeen := false,
                               refusalPending := false, drain := false }
        ∧ t.eventSet .left = true ∧ (t.member s.ownId).membership = .absent
        ∧ t.stu.gate = .detached ∧ t.stu.stall = .stopped ∧ t.stu.stallFlag = false
        ∧ t.bac.rosterItem = none ∧ t.mu.tableEmpty = true)
    ∧ (s.acu.drain = true → s.mu.onlyAt deadline = false →
      ∃ t, exec (.boundary order) s = .next t
        ∧ t.acu = s.acu ∧ t.stu.stall = .running 0 ∧ t.stu.stallFlag = s.stu.stallFlag ∧ t.stu.index = n)
    ∧ (s.acu.drain = false → atOrBehind n l = false →
      ∃ t, exec (.boundary order) s = .next t
        ∧ t.acu = s.acu ∧ t.member s.ownId = s.member s.ownId
        ∧ t.stu.stall = .stopped ∧ t.stu.stallFlag = false ∧ t.stu.index = n)

/-- R1, R9, R7, R14, R15: which high levels of GATE are boundaries; a level that is none is noted, and in HOLDING it is a gate
fault, raised once in a HOLDING period. The scan period expires; with the other two release conditions met in HOLDING, GATE
is let go and the stall timer restarted. (The notes of the level and of the fault seen are log 7 and log 6. GATE_FAULT
outside HOLDING, and SCAN_PERIOD_EXPIRY with the period not running, change nothing, log 3.) -/
def Obligations.GateLevelsFaultsAndPeriod : Prop :=
  (∀ s : State,
     (s.stu.takesBoundary = true ↔ s.stu.gate = .released .wait
       ∨ ((s.stu.gate = .observing ∨ s.stu.gate = .released .guard) ∧ s.stu.gateHigh = false))
     ∧ (∀ order, s.stu.takesBoundary = false → s.stu.gate ≠ .holding →
         exec (.boundary order) s = .next { s with stu := { s.stu with gateHigh := true } })
     ∧ (∀ order, s.stu.gate = .holding → exec (.boundary order) s = .next s)
     ∧ exec .gateLow s = .next { s with stu := { s.stu with gateHigh := false } }
     ∧ (s.stu.gate = .holding → s.stu.faultSeen = false → ∃ t, exec .gateFault s = .next t
         ∧ t = { s with stu := { s.stu with gateHigh := true, faultSeen := true },
                        hpu := { s.hpu with events := t.hpu.events } }
         ∧ s.RaisesExactly t [.gateFault])
     ∧ (s.stu.gate = .holding → s.stu.faultSeen = true →
         exec .gateFault s = .next { s with stu := { s.stu with gateHigh := true } })
     ∧ (s.stu.gate ≠ .holding → exec .gateFault s = .next s))
  ∧ (∀ s : State,
       (s.stu.period.runs = true → s.stu.gate = .holding → s.hc.selfHold = false →
         (s.selfEligible = false ∨ s.stu.formed = true) →
         exec .scanPeriodExpiry s = .next { s with
           stu := { s.stu with period := .expired, gate := .released .wait,
                               stall := if s.anyHold then .paused else .running 0 } })
       ∧ (s.stu.period.runs = true →
         (s.stu.gate ≠ .holding ∨ s.hc.selfHold = true ∨ (s.selfEligible = true ∧ s.stu.formed = false)) →
         exec .scanPeriodExpiry s = .next { s with stu := { s.stu with period := .expired } })
       ∧ (s.stu.period.runs = false → exec .scanPeriodExpiry s = .next s))

/-- R4, R5: what the guard expiry decides for the scan in progress, row by row. (A due take request is log 10, the level
noted log 7; with the guard timer stopped nothing happens, log 3.) -/
def Obligations.GuardExpiryDecidesGate : Prop :=
  ∀ s : State, s.HoldControlLaw →
    (s.stu.guard.runs = true → (∃ p, s.stu.gate = .released p) →
      (s.acu.state = .joining ∨ s.acu.state = .member
        ∨ (s.acu.state = .leaving ∧ ∃ l, s.acu.leaveScan = some l ∧ behind l s.stu.index = true)) →
      exec .guardExpiry s = .next { s with
        stu := { s.stu with guard := .stopped, gate := .holding, gateHigh := false, faultSeen := false } })
    ∧ (∀ l, s.stu.guard.runs = true → (∃ p, s.stu.gate = .released p) → s.acu.state = .leaving →
      s.acu.leaveScan = some l → behind l s.stu.index = false →
      ∃ t, exec .guardExpiry s = .next t
        ∧ t = { s with stu := { s.stu with guard := .stopped, gate := .observing }, hc := t.hc, bac := t.bac }
        ∧ t.hc = (if s.hc.selfHold then { s.hc with selfHold := false, requested := 0, renewal := .stopped } else s.hc)
        ∧ (s.hc.selfHold = true → t.bac.holdItem.isSome = true) ∧ (s.hc.selfHold = false → t.bac = s.bac))
    ∧ (s.stu.guard.runs = true → s.stu.gate = .observing → s.stu.take = .due →
      ∃ t, exec .guardExpiry s = .next t
        ∧ t = { s with
            stu := { s.stu with guard := .stopped, take := .clear, gate := .holding, gateHigh := false, faultSeen := false }
            hc := t.hc, bac := t.bac }
        ∧ t.hc = (if s.hc.backlogReason || s.hc.freezeReason then
            { s.hc with selfHold := true, requested := BitVec.ofNat 16 (s.param .holdQuanta), renewal := .running 0 }
          else s.hc)
        ∧ (t.hc.selfHold = true → t.bac.holdItem.isSome = true) ∧ (t.hc.selfHold = false → t.bac = s.bac))
    ∧ (s.stu.guard.runs = true →
      (s.stu.gate = .observing ∧ s.stu.take ≠ .due) ∨ s.stu.gate = .detached ∨ s.stu.gate = .holding →
      exec .guardExpiry s = .next { s with stu := { s.stu with guard := .stopped } })
    ∧ (s.stu.guard.runs = false → exec .guardExpiry s = .next s)

/-- R10, R132, R134, R140, R143, R145: a solo boundary restarts the period, clears the formed flag and starts a capture that
carries the next calibration count, with the phase and INSEL of that count; no index, guard or count of boundaries moves. A
capture in progress is cut: its bits are dropped, a sample fault is counted, and, where its count was one to be summed, the
calibration ends with FAULT and the failing channel, and solo pacing with it, and the new capture carries no count. Without
its condition SOLO_BOUNDARY changes nothing (log 3; the number that names the capture start is log 10). -/
def Obligations.SoloBoundaryStartsCapture : Prop :=
  ∀ s : State,
    (s.stu.solo = true → s.stu.period = .expired → (s.stu.formed = true ∨ s.stu.soloMade = false) →
      s.spc.capture = .idle → s.calibrating = true → s.spc.count < 40 →
      let n := s.spc.count + 1
      exec .soloBoundary s = .next { s with
        stu := { s.stu with period := .running 0, formed := false, soloMade := true,
                            startSerial := s.stu.startSerial + 1 }
        spc := { s.spc with
          capture := .strobe
          tag := some ⟨.solo, s.stu.startSerial + 1, some n⟩
          ready := Vector.replicate 4 false
          clocked := []
          raw := Vector.replicate 4 none
          count := n
          phase := if n ≤ 4 then .zeroSettle else if n ≤ 20 then .zeroAccum else if n ≤ 24 then .refSettle else .refAccum
          insel := if n ≤ 20 then .zero else .reference
          elapsed := 0 } })
    ∧ (s.SampleLaw → s.stu.soloDue = true →
      let cuts := decide (s.spc.capture ≠ .idle)
      let summed := (tagCount s.spc.tag).any fun n => decide (5 ≤ n ∧ n ≤ 20) || decide (25 ≤ n ∧ n ≤ 40)
      let fails := cuts && summed
      let counts := !fails && decide (s.spc.count < 40)
      let n := s.spc.count + 1
      let notReady := (List.finRange 4).find? fun c => decide (c.val < s.param .channels) && !s.spc.ready[c]
      ∃ t, exec .soloBoundary s = .next t
        ∧ t = { s with
            stu := { s.stu with
              period := if fails = true ∧ s.stu.gate = .detached then .stopped else .running 0
              formed := false, solo := !fails, soloMade := true, startSerial := s.stu.startSerial + 1 }
            spc := { s.spc with
              capture := .strobe
              tag := some ⟨.solo, s.stu.startSerial + 1, if counts then some n else none⟩
              ready := Vector.replicate 4 false
              clocked := []
              raw := Vector.replicate 4 none
              elapsed := 0
              count := if fails then 0 else if counts then n else s.spc.count
              phase :=
                if fails then .idle
                else if counts then
                  (if n ≤ 4 then .zeroSettle else if n ≤ 20 then .zeroAccum else if n ≤ 24 then .refSettle else .refAccum)
                else s.spc.phase
              insel :=
                if fails then .normal else if counts then (if n ≤ 20 then .zero else .reference) else s.spc.insel
              sums := if fails then Vector.replicate 4 ⟨0, 0⟩ else s.spc.sums
              result := if fails then .fail .fault (notReady.getD 0) else s.spc.result }
            hpu := { s.hpu with events := t.hpu.events, counters := t.hpu.counters } }
        ∧ s.CountsExactly t (if cuts then [.sampleFaults] else [])
        ∧ s.RaisesExactly t (if fails then [.calDone] else []))
    ∧ ((s.stu.solo = false ∨ s.stu.period ≠ .expired ∨ (s.stu.formed = false ∧ s.stu.soloMade = true)) →
      exec .soloBoundary s = .next s)

/-- R16, R17, R58, R77 to R80: the stall timer expires in the wait phase, or in a drain, which it ends: every entry still OPEN
closes FLUSHED, and their records join the queue oldest first, or are discarded and counted while records are suspended. An
expiry elsewhere only leaves the timer expired (log 17). -/
def Obligations.StallTimerExpires : Prop :=
  ∀ s : State,
    (s.stu.stall.runs = true → s.acu.state = .leaving → s.acu.drain = true →
      ∃ t, exec .stallTimerExpiry s = .next t
        ∧ t.eventSet .gateStall = true ∧ t.eventSet .left = true
        ∧ t.counter .gateStalls = s.counter .gateStalls + 1
        ∧ t.counter .recordsComplete = s.counter .recordsComplete
        ∧ t.counter .recordsPartial = s.counter .recordsPartial
        ∧ t.acu.state = .configured ∧ t.acu.leaveScan = none ∧ t.acu.drain = false
        ∧ t.stu.gate = .detached ∧ t.stu.stall = .stopped ∧ t.stu.stallFlag = false
        ∧ (∀ i : Slot, t.mu.slots[i] = none) ∧ t.mu.current = none ∧ t.ru.reports = s.ru.reports
        ∧ (s.mu.suspended = false →
            t.rcu.queue = s.rcu.queue ++ s.mu.entriesOldestFirst.map (fun e => e.toRecord .flushed s.stu.time)
            ∧ t.counter .recordsDiscarded = s.counter .recordsDiscarded)
        ∧ (s.mu.suspended = true → t.rcu = s.rcu ∧ t.counter .recordsDiscarded =
            s.counter .recordsDiscarded + BitVec.ofNat 32 s.mu.entriesOldestFirst.length))
    ∧ (s.stu.stall.runs = true → ¬(s.acu.state = .leaving ∧ s.acu.drain = true) → s.stu.gate = .released .wait →
      ∃ t, exec .stallTimerExpiry s = .next t
        ∧ t = { s with stu := { s.stu with stall := .expired, stallFlag := true }, hpu := t.hpu }
        ∧ s.CountsExactly t [.gateStalls] ∧ s.RaisesExactly t [.gateStall] ∧ s.PortKept t)
    ∧ (s.stu.stall.runs = true → ¬(s.acu.state = .leaving ∧ s.acu.drain = true) → s.stu.gate ≠ .released .wait →
      exec .stallTimerExpiry s = .next { s with stu := { s.stu with stall := .expired } })
    ∧ (s.stu.stall.runs = false → exec .stallTimerExpiry s = .next s)

/-! ### The array states -/

/-- R60, R44: JOIN is accepted in CONFIGURED with no calibration in progress, and refused in every other case. -/
def Obligations.JoinCommand : Prop :=
  ∀ s : State, s.hpu.resetnLow = false →
    (s.acu.state = .configured → s.calibrating = false → s.ArrayLaw → s.HoldControlLaw →
      exec .join s = .next { s with
        hpu := s.portAfter .join ⟨.accepted, .none, .command .join⟩
        stu := { s.stu with gate := .observing }
        acu := { s.acu with state := .listening, listen := .running 0, admission := none, matchingSeen := false,
                            mismatchingSeen := false, reason := .none } })
    ∧ (s.acu.state ≠ .configured ∨ s.calibrating = true →
      exec .join s = .next { s with hpu := s.portAfter .join ⟨.wrongState, .none, .command .join⟩ })

/-- R61, with the effects of R53 to R55: LEAVE in LISTENING rests in CONFIGURED; in JOINING it leaves with L at J, eligible
for no scan; in MEMBER with L JOIN_LEAD ahead, eligible for the scans behind L where L is not its from scan (R20); and it is
refused in every other state. In HOLDING the release of GATE is tested with the node's own entry as it then stands (R7). -/
def Obligations.LeaveCommand : Prop :=
  ∀ s : State, s.hpu.resetnLow = false → s.ArrayLaw → s.HoldControlLaw →
    let accepted := s.portAfter .leave ⟨.accepted, .none, .command .leave⟩
    (s.acu.state = .listening →
      ∃ t, exec .leave s = .next t
        ∧ t = { s with
            hpu := accepted
            stu := { s.stu with gate := .detached, take := .clear, guard := .stopped, stall := .stopped,
                                stallFlag := false, period := .stopped }
            ru := { s.ru with members := t.ru.members }
            bac := { s.bac with rosterItem := none }
            acu := { s.acu with state := .configured, listen := .stopped, admission := none, matchingSeen := false,
                                mismatchingSeen := false, refusalPending := false } }
        ∧ (t.member s.ownId).membership = .absent ∧ (∀ k : NodeId, k ≠ s.ownId → t.member k = s.member k))
    ∧ (∀ j, s.acu.state = .joining → s.acu.joinScan = some j →
      ∃ t, exec .leave s = .next t
        ∧ t.acu = { s.acu with state := .leaving, leaveScan := some j, joinScan := none, refusalPending := false }
        ∧ t.member s.ownId = { membership := .departing j j } ∧ (∀ k : NodeId, k ≠ s.ownId → t.member k = s.member k)
        ∧ (∀ n : Scan, t.eligible s.ownId n = false)
        ∧ t.bac.rosterItem.isSome = true ∧ t.hpu.result = s.resultAfter ⟨.accepted, .none, .command .leave⟩
        ∧ t.calibrating = false ∧ (s.calibrating = true → t.spc.result = .aborted ∧ t.eventSet .calDone = true)
        ∧ t.spc.table = s.spc.table ∧ t.mu = s.mu ∧ t.rcu = s.rcu ∧ (s.stu.gate ≠ .holding → t.stu = s.stu)
        ∧ t.stu = { s.stu with gate := t.stu.gate, stall := t.stu.stall }
        ∧ t.stu.gate = (if s.stu.gate = .holding ∧ s.stu.period = .expired ∧ s.hc.selfHold = false then
            .released .wait else s.stu.gate))
    ∧ (∀ f, s.acu.state = .member → (s.member s.ownId).membership = .active f →
      let l := s.stu.index + BitVec.ofNat 24 (s.param .joinLead)
      ∃ t, exec .leave s = .next t
        ∧ t.acu = { s.acu with state := .leaving, leaveScan := some l }
        ∧ t.member s.ownId = { membership := .departing f l } ∧ (∀ k : NodeId, k ≠ s.ownId → t.member k = s.member k)
        ∧ (l ≠ f → ∀ n : Scan, behind l n = true → t.eligible s.ownId n = true)
        ∧ t.bac.rosterItem.isSome = true ∧ t.hpu.result = s.resultAfter ⟨.accepted, .none, .command .leave⟩
        ∧ t.calibrating = false ∧ (s.calibrating = true → t.spc.result = .aborted ∧ t.eventSet .calDone = true)
        ∧ t.spc.table = s.spc.table ∧ t.mu = s.mu ∧ t.rcu = s.rcu ∧ (s.stu.gate ≠ .holding → t.stu = s.stu)
        ∧ t.stu = { s.stu with gate := t.stu.gate, stall := t.stu.stall }
        ∧ t.stu.gate = (if s.stu.gate = .holding ∧ s.stu.period = .expired ∧ (s.stu.formed = true ∨ l = f)
              ∧ s.hc.selfHold = false then .released .wait else s.stu.gate))
    ∧ (s.acu.state ≠ .listening → s.acu.state ≠ .joining → s.acu.state ≠ .member →
      exec .leave s = .next { s with hpu := s.portAfter .leave ⟨.wrongState, .none, .command .leave⟩ })

/-- R46, R49, R6, R66, R26, R103, R104, R107: the table of the listen timer's expiry. At the founding the node takes the gate
at index 0 as the only member, the entry for scan 0 opens in slot 0 expecting the own id alone, and self-hold, with its HOLD
request, begins where a hold reason is on. In other states, or with the timer
not running, the command changes nothing (log 3). (The number of the founding start, in the STU and in the tag, is log 10;
the GATE level noted low, at the taking and with `gateFell`, is log 7.) -/
def Obligations.ListenTimerExpiryTable : Prop :=
  (∀ (gateFell : Bool) (s : State),
      (s.acu.state = .listening → s.acu.listen.runs = true →
        (s.stu.gateHigh = false →
          exec (.listenTimerExpiry gateFell) s = .next { s with acu := { s.acu with listen := .running 0 } })
        ∧ (s.stu.gateHigh = true → s.acu.matchingSeen = true →
          exec (.listenTimerExpiry gateFell) s = .next { s with
            acu := { s.acu with listen := .running 0, admission := none, matchingSeen := false, mismatchingSeen := false } })
        ∧ (s.stu.gateHigh = true → s.acu.matchingSeen = false → s.acu.mismatchingSeen = true →
          ∃ t, exec (.listenTimerExpiry gateFell) s = .next t
            ∧ t.acu = { s.acu with state := .configured, joinScan := none, leaveScan := none, listen := .stopped,
                                   admission := none, matchingSeen := false, mismatchingSeen := false,
                                   refusalPending := false, drain := false, reason := .digest }
            ∧ t.eventSet .joinRefused = true ∧ t.stu.gate = .detached ∧ t.stu.period = .stopped)
        ∧ (s.stu.gateHigh = true → s.acu.matchingSeen = false → s.acu.mismatchingSeen = false → gateFell = true →
          exec (.listenTimerExpiry gateFell) s = .next { s with
            stu := { s.stu with gateHigh := false }, acu := { s.acu with listen := .running 0 } }))
      ∧ (s.acu.state ≠ .listening ∨ s.acu.listen.runs = false → exec (.listenTimerExpiry gateFell) s = .next s))
  ∧ (∀ s : State, s.ArrayLaw → s.acu.state = .listening → s.acu.listen.runs = true → s.stu.gateHigh = true →
      s.acu.matchingSeen = false → s.acu.mismatchingSeen = false →
      ∃ t, exec (.listenTimerExpiry false) s = .next t
        ∧ t.acu = { s.acu with state := .member, joinScan := none, listen := .stopped }
        ∧ t.stu = { s.stu with gate := .holding, gateHigh := false, faultSeen := false, index := 0, period := .running 0,
                               formed := false, boundaryTime := s.stu.time, take := .clear,
                               startSerial := s.stu.startSerial + 1 }
        ∧ t.member s.ownId = { membership := .active 0 }
        ∧ (∀ k : NodeId, k ≠ s.ownId → t.member k = Member.absentEntry)
        ∧ t.mu.current = some 0 ∧ t.mu.slots[(0 : Slot)] = some ⟨0, single s.ownId, 0, [], s.stu.time⟩
        ∧ (∀ i : Slot, i ≠ 0 → t.mu.slots[i] = none)
        ∧ t.spc.capture = .strobe ∧ t.spc.tag = some ⟨.founding, s.stu.startSerial + 1, none⟩
        ∧ t.eventSet .joined = true ∧ t.counter .boundaries = s.counter .boundaries
        ∧ t.bac.rosterItem = s.bac.rosterItem ∧ t.rcu = s.rcu ∧ t.cs = s.cs
        ∧ (s.HoldControlLaw →
          let holds := s.hc.backlogReason || s.hc.freezeReason
          t.hc = (if holds then
              { s.hc with selfHold := true, requested := BitVec.ofNat 16 (s.param .holdQuanta), renewal := .running 0 }
            else s.hc)
          ∧ (holds = false ∨ s.bac.holdItem.isSome = true → t.bac = s.bac)
          ∧ (holds = true → s.bac.holdItem = none → t.bac =
              if s.bac.transmitter = .idle ∧ s.bac.resetPending = false then
                { s.bac with holdItem := some ⟨0, false⟩, transmitter := .accessWait, busyMark := s.bac.line.carrier,
                             phaseTime := 0 }
              else { s.bac with holdItem := some ⟨0, false⟩ })))

/-! ### The roster unit -/

/-- R20, R11: eligibility, by the state of the entry, the node's own being that of its own id for the current index; and the
comparison of two scan indices, in each row of the table of R11: with the id of the node whose index the second is, and with
no node attached. The clause at the tie distance with no node attached is the model's own choice (log 1), where R11 gives no
result: the second is ahead by a free value, and behind where it is not ahead. -/
def Obligations.EligibilityAndScanComparison : Prop :=
  (∀ (s : State) (k : NodeId) (n : Scan),
    s.eligible k n = true ↔
      (∃ f, (s.member k).membership = .pending f ∧ atOrBehind n f = true)
      ∨ (∃ f, (s.member k).membership = .active f)
      ∨ (∃ f u, (s.member k).membership = .departing f u ∧ behind u n = true ∧ u ≠ f))
  ∧ (∀ s : State, s.selfEligible = s.eligible s.ownId s.stu.index
      ∧ (s.param .nodeId < 32 → s.ownId.val = s.param .nodeId))
  ∧ (∀ (own k : NodeId) (a b : Scan),
    let d := (b - a).toNat
    (d = 0 ↔ b = a)
    ∧ (d = 0 → aheadOfNode own k a b = false ∧ ahead a b = false ∧ behind a b = false ∧ atOrBehind a b = true)
    ∧ (1 ≤ d → d ≤ 8388607 →
        aheadOfNode own k a b = true ∧ ahead a b = true ∧ behind a b = false ∧ atOrBehind a b = false)
    ∧ (d = 8388608 → (aheadOfNode own k a b = true ↔ own < k) ∧ behind a b = !ahead a b ∧ atOrBehind a b = !ahead a b)
    ∧ (8388609 ≤ d →
        aheadOfNode own k a b = false ∧ ahead a b = false ∧ behind a b = true ∧ atOrBehind a b = true)
    ∧ (atOrBehind a b = true ↔ b = a ∨ behind a b = true))

/-- R23 to R25, R47: what an announcement does to its sender's entry, where the ROSTER brings no realign; the other peers'
entries stay. In LISTENING the ROSTER becomes the admission roster; in LOADING, AWAITING_CONFIG and CONFIGURED it is
dropped. With no ROSTER at the head of the buffer the command changes nothing (log 3). -/
def Obligations.RosterAnnouncement : Prop :=
  (∀ (s : State) (r : Roster) (rest : List Frame), s.bac.inbound = .roster r :: rest → s.acu.state.inArray = true →
      r.sender ≠ s.ownId → aheadOfNode s.ownId r.sender s.stu.index r.currentScan = false →
      let m := s.member r.sender
      let given := if ahead s.stu.index r.announced then r.announced else s.stu.index + 1
      ∃ t, exec .rosterTaken s = .next t
        ∧ t.bac.inbound = rest ∧ t.stu.index = s.stu.index
        ∧ (∀ k : NodeId, k ≠ r.sender → k ≠ s.ownId → t.member k = s.member k)
        ∧ t.member r.sender = (match m.membership with
          | .absent => if r.join = true ∧ r.leave = false then { membership := .pending given } else m
          | .pending f => if r.leave then { m with membership := .departing f given } else m
          | .active f => if r.leave then { m with membership := .departing f given } else m
          | .departing _ _ => m)
        ∧ t.eventSet .memberChange = (s.eventSet .memberChange || (m.membership.isAbsent && r.join && !r.leave))
        ∧ (t.counter .contribUnlisted = s.counter .contribUnlisted
            + (if (∃ f u, m.membership = .departing f u) ∧ r.join = true ∧ r.leave = false then 1 else 0))
        ∧ t.mu = s.mu ∧ t.rcu = s.rcu ∧ t.hc = s.hc ∧ t.cs = s.cs ∧ t.spc = s.spc)
  ∧ (∀ s : State,
      (∀ r rest, s.bac.inbound = .roster r :: rest → s.acu.state = .listening →
        exec .rosterTaken s = .next { s with
          bac := { s.bac with inbound := rest }
          acu := { s.acu with admission := some r, matchingSeen := true } })
      ∧ (∀ r rest, s.bac.inbound = .roster r :: rest → s.acu.state.offGate = true →
        exec .rosterTaken s = .next { s with bac := { s.bac with inbound := rest } })
      ∧ ((∀ r rest, s.bac.inbound ≠ .roster r :: rest) → exec .rosterTaken s = .next s))

/-- R13, R33, R34, R51, R57, R76, R123, with R24, R25, R37, R52: a ROSTER whose current scan is ahead brings a realign: the
index jumps, and every scan number of the member table, the self entry included, of the current merge entry and of the SCAN
frames moves with it; every other entry closes REALIGNED, oldest first. Then its announcement acts on the sender's entry,
against the new index, and a member that the sender has dropped rejoins. In JOINING J moves, and in LEAVING L (R51), unless the
closes leave no entry OPEN in a drain, which they then complete (R57). -/
def Obligations.RosterRealignsNode : Prop :=
  ∀ (s : State) (r : Roster) (rest : List Frame), s.bac.inbound = .roster r :: rest → s.acu.state.inArray = true →
    aheadOfNode s.ownId r.sender s.stu.index r.currentScan = true →
    let d := r.currentScan - s.stu.index
    let given := if ahead r.currentScan r.announced then r.announced else r.currentScan + 1
    let moved := (s.member r.sender).movedBy d
    let dropped := s.acu.state = .member ∧ (s.member r.sender).membership.isActive = true ∧ r.leave = false
      ∧ (∀ e ∈ r.list, e.id ≠ s.ownId)
      ∧ ∃ f, (s.member s.ownId).membership = .active f ∧ 65536 ≤ Scan.forward r.currentScan (f + d)
    let drained := s.acu.drain = true ∧ s.mu.tableEmpty = false ∧ ∀ i, s.mu.current = some i → s.mu.slots[i] = none
    ∃ t, exec .rosterTaken s = .next t
      ∧ t.stu.index = r.currentScan
      ∧ t.counter .realigns = s.counter .realigns + 1 ∧ t.eventSet .realigned = true
      ∧ (∀ k : NodeId, k ≠ r.sender → k ≠ s.ownId → t.member k = (s.member k).movedBy d)
      ∧ (r.sender ≠ s.ownId →
          t.member r.sender = (match moved.membership with
            | .absent => if r.join = true ∧ r.leave = false then { membership := .pending given } else moved
            | .pending f => if r.leave then { moved with membership := .departing f given } else moved
            | .active f => if r.leave then { moved with membership := .departing f given } else moved
            | .departing _ _ => moved))
      ∧ (s.SelfLaw → r.sender ≠ s.ownId →
          (dropped → (t.member s.ownId).membership = .pending (r.currentScan + BitVec.ofNat 24 (s.param .joinLead)))
          ∧ (¬dropped → (t.member s.ownId).membership = ((s.member s.ownId).movedBy d).membership))
      ∧ (∀ i : Slot, t.mu.slots[i] =
          if s.mu.current = some i then (s.mu.slots[i]).map fun e => { e with scan := e.scan + d } else none)
      ∧ (s.mu.suspended = false →
          t.rcu.queue = s.rcu.queue ++ s.mu.othersOldestFirst.map (fun e => e.toRecord .realigned s.stu.time))
      ∧ (s.mu.suspended = true → t.rcu = s.rcu ∧ t.counter .recordsDiscarded =
          s.counter .recordsDiscarded + BitVec.ofNat 32 s.mu.othersOldestFirst.length)
      ∧ t.bac.scanItems = s.bac.scanItems.map (fun x =>
          { x with frame := { x.frame with index := x.frame.index + d } })
      ∧ t.bac.inTx = s.bac.inTx.map (fun x => { x with delta := x.delta + d })
      ∧ (s.acu.state ≠ .leaving →
          t.stu = { s.stu with index := r.currentScan, gate := t.stu.gate, stall := t.stu.stall })
      ∧ (s.acu.state = .joining → t.acu.joinScan = s.acu.joinScan.map (· + d))
      ∧ (s.acu.state = .leaving → ¬drained → t.acu = { s.acu with leaveScan := s.acu.leaveScan.map (· + d) })
      ∧ (s.acu.state = .leaving → drained →
          t.acu = { s.acu with state := .configured, joinScan := none, leaveScan := none, listen := .stopped,
                               admission := none, matchingSeen := false, mismatchingSeen := false,
                               refusalPending := false, drain := false }
          ∧ t.eventSet .left = true ∧ t.stu.gate = .detached ∧ t.stu.stall = .stopped ∧ t.bac.rosterItem = none)
      ∧ t.spc = s.spc ∧ t.cs = s.cs

/-- R37, R52: a ROSTER from an ACTIVE peer that no longer lists this node makes a member rejoin; a ROSTER that is not a
drop leaves the ACU as it was, and so does every ROSTER that carries LEAVE, whose announcement leaves its sender's entry no longer
ACTIVE before the test (R23, R25). (One that brings a realign is RosterRealignsNode's.) -/
def Obligations.RosterSelfDrop : Prop :=
  (∀ (s : State) (r : Roster) (rest : List Frame) (f g : Scan), s.bac.inbound = .roster r :: rest →
    s.acu.state = .member → r.sender ≠ s.ownId → r.leave = false →
    aheadOfNode s.ownId r.sender s.stu.index r.currentScan = false →
    (s.member s.ownId).membership = .active f →
    ((s.member r.sender).membership = .active g → (∀ e ∈ r.list, e.id ≠ s.ownId) →
        65536 ≤ Scan.forward r.currentScan f →
      let j := s.stu.index + BitVec.ofNat 24 (s.param .joinLead)
      ∃ t, exec .rosterTaken s = .next t
        ∧ t.acu = { s.acu with state := .joining, joinScan := some j, refusalPending := false }
        ∧ t.member s.ownId = { membership := .pending j }
        ∧ t.eventSet .dropped = true ∧ t.bac.rosterItem.isSome = true
        ∧ t.stu = { s.stu with gate := t.stu.gate, stall := t.stu.stall }
        ∧ (s.stu.gate ≠ .holding → t.stu = s.stu) ∧ t.spc = s.spc)
    ∧ ((s.member r.sender).membership.isActive = false ∨ (∃ e ∈ r.list, e.id = s.ownId)
        ∨ Scan.forward r.currentScan f < 65536 →
      ∃ t, exec .rosterTaken s = .next t ∧ t.acu = s.acu ∧ t.stu = s.stu ∧ t.member s.ownId = s.member s.ownId
        ∧ t.eventSet .dropped = s.eventSet .dropped))
  ∧ (∀ (s : State) (r : Roster) (rest : List Frame), s.bac.inbound = .roster r :: rest →
    s.acu.state = .member → r.sender ≠ s.ownId → r.leave = true →
    aheadOfNode s.ownId r.sender s.stu.index r.currentScan = false →
    ∃ t, exec .rosterTaken s = .next t ∧ t.acu = s.acu ∧ t.stu = s.stu ∧ t.member s.ownId = s.member s.ownId
      ∧ t.eventSet .dropped = s.eventSet .dropped)

/-- R30, R31, R32, R15: a HOLD frame sets its sender's hold field, and a field's countdown clears it; in the wait phase
the stall timer is restarted, paused while any hold field is nonzero, which is the level of R32. -/
def Obligations.HoldFieldsSetAndCleared : Prop :=
  ∀ s : State,
    (s.anyHold = true ↔ ∃ k : NodeId, (s.member k).hold ≠ 0)
    ∧ (∀ k q rest, s.bac.inbound = .hold k q :: rest → s.acu.state.inArray = true →
      (s.member k).membership.isAbsent = false →
      ∃ t, exec .holdTaken s = .next t
        ∧ t = { s with bac := { s.bac with inbound := rest }, ru := { s.ru with members := t.ru.members },
                       stu := { s.stu with stall := t.stu.stall } }
        ∧ t.member k = { s.member k with hold := q, holdPhase := 0 }
        ∧ (∀ i : NodeId, i ≠ k → t.member i = s.member i)
        ∧ t.stu.stall = (if s.stu.gate = .released .wait ∧ (q ≠ 0 ∨ (s.member k).hold ≠ 0) then
            (if t.anyHold then .paused else .running 0) else s.stu.stall))
    ∧ (∀ k q rest, s.bac.inbound = .hold k q :: rest → s.acu.state.inArray = true →
      (s.member k).membership.isAbsent = true →
      ∃ t, exec .holdTaken s = .next t
        ∧ t = { s with bac := { s.bac with inbound := rest }, hpu := { s.hpu with counters := t.hpu.counters } }
        ∧ s.CountsExactly t [.contribUnlisted])
    ∧ (∀ k q rest, s.bac.inbound = .hold k q :: rest → s.acu.state.inArray = false →
      exec .holdTaken s = .next { s with bac := { s.bac with inbound := rest } })
    ∧ ((∀ k q rest, s.bac.inbound ≠ .hold k q :: rest) → exec .holdTaken s = .next s)
    ∧ (∀ k, (s.member k).hold ≠ 0 →
      ∃ t, exec (.holdCountdownExpiry k) s = .next t
        ∧ t = { s with ru := { s.ru with members := t.ru.members }, stu := { s.stu with stall := t.stu.stall } }
        ∧ t.member k = { s.member k with hold := 0, holdPhase := 0 }
        ∧ (∀ i : NodeId, i ≠ k → t.member i = s.member i)
        ∧ t.stu.stall = (if s.stu.gate = .released .wait then (if t.anyHold then .paused else .running 0)
            else s.stu.stall))
    ∧ (∀ k, (s.member k).hold = 0 → exec (.holdCountdownExpiry k) s = .next s)

/-- R28, R29: a deadline report clears the miss counts of those present, raises those of the missing to at most
MISS_LIMIT, and loses an ACTIVE or DEPARTING peer that reaches it. -/
def Obligations.MissReportCountsAndLoses : Prop :=
  ∀ (s : State) (r : MissReport) (rest : List MissReport), s.ru.reports = r :: rest → 1 ≤ s.param .missLimit →
    s.param .missLimit ≤ 15 →
    let limit := s.param .missLimit
    ∃ t, exec .missReport s = .next t
      ∧ t.ru.reports = rest ∧ t.ru.selector = s.ru.selector
      ∧ t = { s with ru := t.ru, stu := { s.stu with stall := t.stu.stall }, hpu := { s.hpu with events := t.hpu.events } }
      ∧ (∀ k : NodeId,
          let m := s.member k
          let raised := min (m.missCount.toNat + 1) limit
          t.member k =
            if k = s.ownId ∨ inSet r.expected k = false then m
            else if inSet r.present k then { m with missCount := 0 }
            else match m.membership with
              | .absent => m
              | .pending _ => { m with missCount := BitVec.ofNat 4 raised }
              | .active _ | .departing _ _ =>
                if raised = limit then Member.absentEntry else { m with missCount := BitVec.ofNat 4 raised })
      ∧ s.RaisesExactly t (if ∃ k : NodeId, (s.member k).membership ≠ .absent ∧ (t.member k).membership = .absent then
          [.memberChange] else [])

/-! ### The hold controller -/

/-- R102 to R107, R7, R121: FREEZE turns self-hold on or off, with the HOLD request of each; a HOLDING node whose other
release conditions are met lets GATE go when self-hold ends. A renewal with self-hold active requests HOLD_QUANTA again
and restarts the timer, and leaves one unsent HOLD request in the list; outside that the timer is stopped, and without a
running timer nothing happens (log 17, log 3). Self-hold is for a node that takes part in the gate, in HOLDING or RELEASED. -/
def Obligations.SelfHoldFreezeAndRenewal : Prop :=
  (∀ gate : GateDriver, gate.takesPart = true ↔ gate = .holding ∨ ∃ phase, gate = .released phase)
  ∧
  (∀ (high : Bool) (s : State), s.HoldControlLaw →
      (high = true → s.hc.selfHold = false → s.stu.gate.takesPart = true →
        ∃ t, exec (.freezeChange high) s = .next t
          ∧ t = { s with bac := t.bac, hc := { s.hc with
              freezeReason := true, selfHold := true, requested := BitVec.ofNat 16 (s.param .holdQuanta),
              renewal := .running 0 } }
          ∧ t.bac.holdItem = some (s.bac.holdItem.getD ⟨0, false⟩))
      ∧ (high = false → s.hc.selfHold = true → s.hc.backlogReason = false →
        ∃ t, exec (.freezeChange high) s = .next t
          ∧ t = { s with stu := t.stu, bac := t.bac, hc := { s.hc with
              freezeReason := false, selfHold := false, requested := 0, renewal := .stopped } }
          ∧ t.bac.holdItem = some (s.bac.holdItem.getD ⟨0, false⟩)
          ∧ t.stu =
              if s.stu.gate = .holding ∧ s.stu.period = .expired ∧ (s.selfEligible = false ∨ s.stu.formed = true) then
                { s.stu with gate := .released .wait, stall := if s.anyHold then .paused else .running 0 }
              else s.stu)
      ∧ ((high = true ∧ (s.hc.selfHold = true ∨ s.stu.gate.takesPart = false))
          ∨ (high = false ∧ (s.hc.selfHold = false ∨ s.hc.backlogReason = true)) →
        exec (.freezeChange high) s = .next { s with hc := { s.hc with freezeReason := high } }))
  ∧ (∀ s : State,
      (s.hc.renewal.runs = true → s.hc.selfHold = true →
        ∃ t, exec .renewalExpiry s = .next t
          ∧ t = { s with
              hc := { s.hc with requested := BitVec.ofNat 16 (s.param .holdQuanta), renewal := .running 0 }, bac := t.bac }
          ∧ (∀ x, s.bac.holdItem = some x → t.bac = s.bac)
          ∧ (s.bac.holdItem = none → t.bac =
              if s.bac.transmitter = .idle ∧ s.bac.resetPending = false then
                { s.bac with holdItem := some ⟨0, false⟩, transmitter := .accessWait, busyMark := s.bac.line.carrier,
                             phaseTime := 0 }
              else { s.bac with holdItem := some ⟨0, false⟩ }))
      ∧ (s.hc.renewal.runs = true → s.hc.selfHold = false →
        exec .renewalExpiry s = .next { s with hc := { s.hc with renewal := .stopped } })
      ∧ (s.hc.renewal.runs = false → exec .renewalExpiry s = .next s))

/-! ### The merge unit -/

/-- R68, R70, R71: a SCAN frame that brings no realign and is not stored is dropped, or counted unlisted, unexpected,
duplicate or late. With no SCAN frame at the head of the buffer nothing happens (log 3). -/
def Obligations.ScanFrameNotStored : Prop :=
  ∀ s : State,
    (∀ f rest, s.bac.inbound = .scan f :: rest →
      let k := f.contribution.node
      let dropped : State := { s with bac := { s.bac with inbound := rest } }
      let counts := fun c : Counter => ∃ t, exec .scanFrameTaken s = .next t
        ∧ t = { dropped with hpu := { s.hpu with counters := t.hpu.counters } } ∧ s.CountsExactly t [c]
      (s.acu.state.inArray = false → exec .scanFrameTaken s = .next dropped)
      ∧ (s.acu.state.inArray = true → (s.member k).membership.isAbsent = true → counts .contribUnlisted)
      ∧ (s.acu.state.inArray = true → (s.member k).membership.isAbsent = false →
          aheadOfNode s.ownId k s.stu.index f.index = false →
          ((∀ i : Slot, ∀ e ∈ s.mu.slots[i], e.scan ≠ f.index) →
            (s.acu.state = .joining ∨ f.index = s.stu.index → exec .scanFrameTaken s = .next dropped)
            ∧ (s.acu.state ≠ .joining → f.index ≠ s.stu.index → counts .contribLate))
          ∧ (∀ (i : Slot) (e : Entry), s.mu.slots[i] = some e → e.scan = f.index →
            (∀ j : Slot, j < i → ∀ g ∈ s.mu.slots[j], g.scan ≠ f.index) →
            (inSet e.expected k = false → counts .contribUnexpected)
            ∧ (inSet e.expected k = true → inSet e.present k = true → counts .contribDuplicate))))
    ∧ ((∀ f rest, s.bac.inbound ≠ .scan f :: rest) → exec .scanFrameTaken s = .next s)

/-- R70, R74, R79, R27, R57, R78: a SCAN frame of a member that its OPEN entry expects and lacks is stored, the sender's last
heard scan follows, and the entry closes COMPLETE when its present set becomes its expected set; the close of the last entry
of a drain completes it. Storing adds the one id to the present set, and the one contribution in its place in ascending order
of id. -/
def Obligations.ScanFrameStored : Prop :=
  (∀ (ids : NodeSet) (j k : NodeId), inSet (insertId ids k) j = (decide (j = k) || inSet ids j))
  ∧ (∀ (c : Contribution) (l : List Contribution),
      (insertContribution c l).Perm (c :: l)
      ∧ (ascendingIds (l.map (·.node)) = true → (∀ d ∈ l, d.node ≠ c.node) →
          ascendingIds ((insertContribution c l).map (·.node)) = true))
  ∧ ∀ (s : State) (f : ScanFrame) (rest : List Frame) (i : Slot) (e : Entry), s.bac.inbound = .scan f :: rest →
    s.acu.state.inArray = true → (s.member f.contribution.node).membership.isAbsent = false →
    aheadOfNode s.ownId f.contribution.node s.stu.index f.index = false →
    s.mu.slots[i] = some e → e.scan = f.index → (∀ j : Slot, j < i → ∀ g ∈ s.mu.slots[j], g.scan ≠ f.index) →
    inSet e.expected f.contribution.node = true → inSet e.present f.contribution.node = false →
    let k := f.contribution.node
    let stored : Entry := { e with present := insertId e.present k,
                                   contributions := insertContribution f.contribution e.contributions }
    let drained := s.acu.state = .leaving ∧ s.acu.drain = true ∧ ∀ j : Slot, j ≠ i → s.mu.slots[j] = none
    let queue := if s.mu.suspended then s.rcu.queue else s.rcu.queue ++ [stored.toRecord .complete s.stu.time]
    let counted := [.contribAccepted, .recordsComplete] ++ if s.mu.suspended then [.recordsDiscarded] else []
    (stored.present ≠ e.expected →
      ∃ t, exec .scanFrameTaken s = .next t
        ∧ t = { s with bac := { s.bac with inbound := rest }, ru := { s.ru with members := t.ru.members },
                       mu := { s.mu with slots := t.mu.slots }, hpu := { s.hpu with counters := t.hpu.counters } }
        ∧ t.mu.slots[i] = some stored ∧ (∀ j : Slot, j ≠ i → t.mu.slots[j] = s.mu.slots[j])
        ∧ t.member k = { s.member k with lastHeard := some f.index }
        ∧ (∀ q : NodeId, q ≠ k → t.member q = s.member q)
        ∧ s.CountsExactly t [.contribAccepted])
    ∧ (stored.present = e.expected → ¬drained →
      ∃ t, exec .scanFrameTaken s = .next t
        ∧ t.mu.slots[i] = none ∧ (∀ j : Slot, j ≠ i → t.mu.slots[j] = s.mu.slots[j])
        ∧ t.mu.current = (if s.mu.current = some i then none else s.mu.current)
        ∧ t.member k = { s.member k with lastHeard := some f.index }
        ∧ (∀ q : NodeId, q ≠ k → t.member q = s.member q)
        ∧ t.rcu.queue = queue ∧ s.CountsExactly t counted
        ∧ t.ru.reports = s.ru.reports ∧ t.acu = s.acu ∧ t.spc = s.spc ∧ t.cs = s.cs)
    ∧ (stored.present = e.expected → drained →
      ∃ t, exec .scanFrameTaken s = .next t
        ∧ t.acu = { s.acu with state := .configured, joinScan := none, leaveScan := none, listen := .stopped,
                               admission := none, matchingSeen := false, mismatchingSeen := false,
                               refusalPending := false, drain := false }
        ∧ t.eventSet .left = true ∧ (t.member s.ownId).membership = .absent
        ∧ t.stu.gate = .detached ∧ t.stu.stall = .stopped ∧ t.bac.rosterItem = none
        ∧ (∀ j : Slot, t.mu.slots[j] = none) ∧ (s.mu.current = some i → t.mu.current = none)
        ∧ (k ≠ s.ownId → t.member k = { s.member k with lastHeard := some f.index })
        ∧ (∀ q : NodeId, q ≠ k → q ≠ s.ownId → t.member q = s.member q)
        ∧ t.rcu.queue = queue ∧ s.CountsExactly t counted
        ∧ t.ru.reports = s.ru.reports ∧ t.spc = s.spc ∧ t.cs = s.cs)

/-- R69, R13, R33, R70, R71, R76: a SCAN frame that is ahead: the MU asks for a realign, which is complete before the frame is
filed against the index it brought: into the current entry, relabelled, or, with none, nowhere. -/
def Obligations.ScanFrameAheadRealigns : Prop :=
  ∀ (s : State) (f : ScanFrame) (rest : List Frame), s.ArrayLaw → s.bac.inbound = .scan f :: rest →
    s.acu.state.inArray = true → (s.member f.contribution.node).membership.isAbsent = false →
    aheadOfNode s.ownId f.contribution.node s.stu.index f.index = true →
    let k := f.contribution.node
    let d := f.index - s.stu.index
    let moved := (s.member k).movedBy d
    let closed := s.mu.othersOldestFirst.map fun e => e.toRecord .realigned s.stu.time
    ∃ t, exec .scanFrameTaken s = .next t
      ∧ t.bac.inbound = rest ∧ t.stu.index = f.index
      ∧ t.counter .realigns = s.counter .realigns + 1 ∧ t.eventSet .realigned = true
      ∧ (∀ q : NodeId, q ≠ k → q ≠ s.ownId → t.member q = (s.member q).movedBy d)
      ∧ (t.member s.ownId).membership = ((s.member s.ownId).movedBy d).membership
      ∧ (∀ i : Slot, s.mu.current ≠ some i → t.mu.slots[i] = none)
      ∧ t.bac.scanItems = s.bac.scanItems.map (fun x =>
          { x with frame := { x.frame with index := x.frame.index + d } })
      ∧ t.bac.inTx = s.bac.inTx.map (fun x => { x with delta := x.delta + d })
      ∧ t.counter .contribLate = s.counter .contribLate ∧ t.spc = s.spc ∧ t.cs = s.cs
      ∧ (s.mu.current = none →
          t.member k = moved ∧ (s.mu.suspended = false → t.rcu.queue = s.rcu.queue ++ closed)
          ∧ t.counter .contribAccepted = s.counter .contribAccepted)
      ∧ (∀ i e, s.mu.current = some i → s.mu.slots[i] = some e →
          let stored : Entry := { e with scan := f.index, present := insertId e.present k,
                                         contributions := insertContribution f.contribution e.contributions }
          (inSet e.expected k = false →
            t.mu.slots[i] = some { e with scan := f.index } ∧ t.member k = moved
            ∧ t.counter .contribUnexpected = s.counter .contribUnexpected + 1)
          ∧ (inSet e.expected k = true → inSet e.present k = true →
            t.mu.slots[i] = some { e with scan := f.index } ∧ t.member k = moved
            ∧ t.counter .contribDuplicate = s.counter .contribDuplicate + 1)
          ∧ (inSet e.expected k = true → inSet e.present k = false → stored.present ≠ e.expected →
            t.mu.slots[i] = some stored ∧ t.member k = { moved with lastHeard := some f.index }
            ∧ t.counter .contribAccepted = s.counter .contribAccepted + 1
            ∧ (s.mu.suspended = false → t.rcu.queue = s.rcu.queue ++ closed))
          ∧ (inSet e.expected k = true → inSet e.present k = false → stored.present = e.expected →
            t.mu.slots[i] = none ∧ t.mu.current = none ∧ t.member k = { moved with lastHeard := some f.index }
            ∧ t.counter .contribAccepted = s.counter .contribAccepted + 1
            ∧ t.counter .recordsComplete = s.counter .recordsComplete + 1
            ∧ (s.mu.suspended = false →
                t.rcu.queue = s.rcu.queue ++ closed ++ [stored.toRecord .complete s.stu.time])))

/-- R85, R87, R88, R95, R102 to R104: an append to the record queue, by a SCAN frame that completes an entry outside a drain:
into an empty queue it sets the read pointer to 0 and raises RECORD_AVAILABLE; at QUEUE_HIGH the backlog flag is set, with
QUEUE_HIGH and, in HOLDING and RELEASED, self-hold and its HOLD request. -/
def Obligations.RecordAppended : Prop :=
  ∀ (s : State) (f : ScanFrame) (rest : List Frame) (i : Slot) (e : Entry), s.bac.inbound = .scan f :: rest →
    s.acu.state.inArray = true → (s.member f.contribution.node).membership.isAbsent = false →
    aheadOfNode s.ownId f.contribution.node s.stu.index f.index = false →
    s.mu.slots[i] = some e → e.scan = f.index → (∀ j : Slot, j < i → ∀ g ∈ s.mu.slots[j], g.scan ≠ f.index) →
    inSet e.expected f.contribution.node = true → inSet e.present f.contribution.node = false →
    insertId e.present f.contribution.node = e.expected →
    s.HoldControlLaw → s.mu.suspended = false → ¬(s.acu.state = .leaving ∧ s.acu.drain = true) →
    let record : Record := {
      scan := f.index, kind := .complete, expected := e.expected, present := e.expected, openTime := e.openTime
      closeTime := s.stu.time, contributions := insertContribution f.contribution e.contributions }
    let fills := !s.rcu.backlog && decide (s.param .queueHigh ≤ s.rcu.queue.length + 1)
    let holds := fills && !s.hc.selfHold && s.stu.gate.takesPart
    ∃ t, exec .scanFrameTaken s = .next t
      ∧ t.rcu = { s.rcu with
          queue := s.rcu.queue ++ [record]
          pointer := if s.rcu.queue = [] then 0 else s.rcu.pointer
          backlog := s.rcu.backlog || fills }
      ∧ s.RaisesExactly t ((if s.rcu.queue = [] then [.recordAvailable] else []) ++ if fills then [.queueHigh] else [])
      ∧ t.hc = (if holds then
          { s.hc with backlogReason := true, selfHold := true, requested := BitVec.ofNat 16 (s.param .holdQuanta),
                      renewal := .running 0 }
        else { s.hc with backlogReason := s.hc.backlogReason || fills })
      ∧ (holds = true → t.bac.holdItem = some (s.bac.holdItem.getD ⟨0, false⟩))
      ∧ (holds = false → t.bac = { s.bac with inbound := rest })
      ∧ t.stu = s.stu ∧ t.cs = s.cs ∧ t.spc = s.spc

/-! ### The bus controller -/

/-- R117 to R120, R46, R47, R50: what the end of a received frame does, by the outcome of its checks; and the checks in
their order, the first that fails being the outcome. Outside RECEIVING nothing happens (log 3). -/
def Obligations.ReceivedFrameEndOutcomes : Prop :=
  (∀ (bytes : List Byte) (s : State),
      let ready : Bac := { s.bac with line := s.bac.line.withCarrier false, receiver := .ready, idleTime := 0 }
      let checked := checkFrame (s.param .width) bytes
      let counters := fun t : State => { s.hpu with counters := t.hpu.counters }
      (s.bac.receiver ≠ .receiving → exec (.receivedFrameEnd bytes) s = .next s)
      ∧ (∀ e, s.bac.receiver = .receiving → checked = .error e →
        ∃ t, exec (.receivedFrameEnd bytes) s = .next t
          ∧ t = { s with bac := ready, hpu := counters t }
          ∧ s.CountsExactly t [match e with
              | .fragment => .rxFragment | .oversize => .rxOversize | .crcError => .rxCrcErr | .malformed => .rxMalformed])
      ∧ (∀ r, s.bac.receiver = .receiving → checked = .ok (.roster r) → r.digest ≠ s.cs.digest →
        ∃ t, exec (.receivedFrameEnd bytes) s = .next t
          ∧ t = { s with bac := ready, hpu := counters t, acu := { s.acu with
              mismatchingSeen := s.acu.mismatchingSeen || (s.acu.state == .listening) } }
          ∧ s.CountsExactly t [.digestMismatch])
      ∧ (∀ f, s.bac.receiver = .receiving → checked = .ok f → (∀ r, f = .roster r → r.digest = s.cs.digest) →
        let kind := match f with | .scan _ => Counter.scanRx | .roster _ => .rosterRx | .hold _ _ => .holdRx
        let heard : Acu := { s.acu with listen := if s.acu.state = .listening then .running 0 else s.acu.listen }
        (f.sender ≠ s.ownId → s.bac.inbound.length < 4 →
          ∃ t, exec (.receivedFrameEnd bytes) s = .next t
            ∧ t = { s with bac := { ready with inbound := s.bac.inbound ++ [f] }, hpu := counters t, acu := heard }
            ∧ s.CountsExactly t [.framesRxGood, kind])
        ∧ (f.sender ≠ s.ownId → 4 ≤ s.bac.inbound.length →
          ∃ t, exec (.receivedFrameEnd bytes) s = .next t
            ∧ t = { s with bac := ready, hpu := counters t } ∧ s.CountsExactly t [.rxOverrun])
        ∧ (f.sender = s.ownId → s.acu.state ≠ .listening →
          ∃ t, exec (.receivedFrameEnd bytes) s = .next t
            ∧ t = { s with bac := ready, hpu := t.hpu, acu := { s.acu with
                refusalPending := s.acu.refusalPending || (s.acu.state == .joining) } }
            ∧ s.CountsExactly t [.framesRxGood, kind] ∧ s.RaisesExactly t [.idConflict] ∧ s.PortKept t)
        ∧ (f.sender = s.ownId → s.acu.state = .listening → s.ArrayLaw →
          ∃ t, exec (.receivedFrameEnd bytes) s = .next t
            ∧ t.acu.state = .configured ∧ t.acu.reason = .idConflict ∧ t.stu.gate = .detached
            ∧ t.bac = { ready with holdItem := t.bac.holdItem, rosterItem := none, transmitter := t.bac.transmitter,
                                   busyMark := t.bac.busyMark, phaseTime := t.bac.phaseTime }
            ∧ s.CountsExactly t [.framesRxGood, kind] ∧ s.RaisesExactly t [.idConflict, .joinRefused])))
  ∧ (∀ (w : Nat) (bytes : List Byte),
      let n := bytes.length
      let crcGood := crc16 (bytes.take (n - 2)) = word16At bytes (n - 2)
      (n < 7 → checkFrame w bytes = .error .fragment)
      ∧ (175 < n → checkFrame w bytes = .error .oversize)
      ∧ (7 ≤ n → n ≤ 175 → ¬crcGood → checkFrame w bytes = .error .crcError)
      ∧ (7 ≤ n → n ≤ 175 → crcGood → parseFrame w bytes = none → checkFrame w bytes = .error .malformed)
      ∧ (∀ f, 7 ≤ n → n ≤ 175 → crcGood → parseFrame w bytes = some f → checkFrame w bytes = .ok f))

/-- R115, R117, R174, R175: what a receiver makes of the bytes of a frame that has passed its CRC: the list of malformed frames,
and the fields of every other, each sample being the low W bits of its three bytes. -/
def Obligations.FrameFieldsRead : Prop :=
  ∀ (w : Nat) (bytes : List Byte), 1 ≤ w → w ≤ 24 →
    let n := bytes.length
    let at8 := fun i : Nat => (bytes.getD i 0).toNat
    let at24 := fun i : Nat => 65536 * at8 i + 256 * at8 (i + 1) + at8 (i + 2)
    let kind := at8 0
    let c := at8 7
    let cal := (bytes.getD 6 0).getLsbD 0
    let fault := (bytes.getD 6 0).getLsbD 1
    let m := at8 12
    (at8 2 ≠ n → parseFrame w bytes = none)
    ∧ (kind ≠ 0x53 → kind ≠ 0x52 → kind ≠ 0x48 → parseFrame w bytes = none)
    ∧ (31 < at8 1 → parseFrame w bytes = none)
    ∧ (kind = 0x48 → n ≠ 7 → parseFrame w bytes = none)
    ∧ (kind = 0x53 →
        4 < c ∨ n ≠ 10 + 3 * c ∨ (c = 0 ∧ cal = false ∧ fault = false) ∨ (c ≠ 0 ∧ (cal = true ∨ fault = true)) →
        parseFrame w bytes = none)
    ∧ (kind = 0x52 →
        n ≠ 15 + 5 * m ∨ (∃ i, i < m ∧ (31 < at8 (13 + 5 * i) ∨ at8 (14 + 5 * i) = 0 ∨ 3 < at8 (14 + 5 * i)))
          ∨ (∃ i, i + 1 < m ∧ at8 (18 + 5 * i) ≤ at8 (13 + 5 * i)) →
        parseFrame w bytes = none)
    ∧ (∀ k : NodeId, at8 2 = n → at8 1 = k.val →
        (kind = 0x48 → n = 7 → parseFrame w bytes = some (.hold k (BitVec.ofNat 16 (256 * at8 3 + at8 4))))
        ∧ (kind = 0x53 → c ≤ 4 → n = 10 + 3 * c → (c = 0 ↔ (cal || fault) = true) →
          parseFrame w bytes = some (.scan {
            index := BitVec.ofNat 24 (at24 3)
            contribution := {
              node := k, cal := cal, fault := fault, ovr := (bytes.getD 6 0).getLsbD 2
              samples := (List.range c).map fun j =>
                let v := at24 (8 + 3 * j) % 2 ^ w
                if v < 2 ^ (w - 1) then (v : Int) else (v : Int) - 2 ^ w } }))
        ∧ (∀ list : List RosterEntry, kind = 0x52 → n = 15 + 5 * m → list.length = m →
          (∀ i e, list[i]? = some e → e.id.val = at8 (13 + 5 * i) ∧ e.scan = BitVec.ofNat 24 (at24 (15 + 5 * i))
            ∧ at8 (14 + 5 * i) = (match e.state with | .pending => 1 | .active => 2 | .departing => 3)) →
          (∀ i, i + 1 < m → at8 (13 + 5 * i) < at8 (18 + 5 * i)) →
          parseFrame w bytes = some (.roster {
            sender := k, join := (bytes.getD 3 0).getLsbD 0, leave := (bytes.getD 3 0).getLsbD 1
            currentScan := BitVec.ofNat 24 (at24 4), announced := BitVec.ofNat 24 (at24 7)
            digest := BitVec.ofNat 16 (256 * at8 10 + at8 11), list := list })))

/-- R124, R116, R35, R107: the access wait is over: the choice of what to send, HOLD before ROSTER before the oldest SCAN,
with its contents, the deferred count, and the receiver BLIND, whatever state it was in, a frame being received then being
discarded without a count (log 34); with nothing to send, or a soft reset pending, IDLE. A ROSTER carries flags and announced
scan by the array state, the digest, and an entry for each member entry that is not ABSENT, in ascending order of id. Without
the wait, or with a carrier that is no frame being received, nothing happens (log 3). -/
def Obligations.AccessWaitChoosesFrame : Prop :=
  (∀ s : State,
      let starts := fun (item : Item) (f : Frame) (b : Bac) => ∃ t, exec .accessWaitComplete s = .next t
        ∧ t = { s with hpu := { s.hpu with counters := t.hpu.counters }, bac := { b with
            inTx := some ⟨⟨item.attempt, item.deferred || s.bac.busyMark⟩, f, 0, false, s.bac.line.carrier⟩
            transmitter := .sending, receiver := .blind, line := s.bac.line.withCarrier true
            idleTime := 0, phaseTime := 0 } }
        ∧ s.CountsExactly t (if s.bac.busyMark && !item.deferred then [.txDeferred] else [])
      let complete := s.bac.transmitter = .accessWait ∧ (s.bac.line.carrier = false ∨ s.bac.receiver = .receiving)
      (complete → s.bac.resetPending = false →
        (∀ item, s.bac.holdItem = some item →
          starts item (.hold s.ownId s.hc.requested) { s.bac with holdItem := none })
        ∧ (∀ item, s.bac.holdItem = none → s.bac.rosterItem = some item →
          starts item (.roster s.formRoster) { s.bac with rosterItem := none })
        ∧ (∀ x rest, s.bac.holdItem = none → s.bac.rosterItem = none → s.bac.scanItems = x :: rest →
          starts x.item (.scan x.frame) { s.bac with scanItems := rest })
        ∧ (s.bac.holdItem = none → s.bac.rosterItem = none → s.bac.scanItems = [] →
          exec .accessWaitComplete s = .next { s with bac := { s.bac with transmitter := .idle, phaseTime := 0 } }))
      ∧ (complete → s.bac.resetPending = true →
        exec .accessWaitComplete s = .next { s with bac := { s.bac with transmitter := .idle, phaseTime := 0 } })
      ∧ (¬complete → exec .accessWaitComplete s = .next s))
  ∧ (∀ s : State,
      let r := s.formRoster
      r.sender = s.ownId ∧ r.currentScan = s.stu.index ∧ r.digest = s.cs.digest
      ∧ (r.join = true ↔ s.acu.state = .joining) ∧ (r.leave = true ↔ s.acu.state = .leaving)
      ∧ (∀ j, s.acu.state = .joining → s.acu.joinScan = some j → r.announced = j)
      ∧ (∀ l, s.acu.state = .leaving → s.acu.leaveScan = some l → r.announced = l)
      ∧ (s.acu.state ≠ .joining → s.acu.state ≠ .leaving → r.announced = 0xFFFFFF)
      ∧ ascendingIds (r.list.map (·.id)) = true
      ∧ (∀ k : NodeId, r.list.find? (·.id == k) = match (s.member k).membership with
          | .absent => none
          | .pending f => some ⟨k, .pending, f⟩
          | .active f => some ⟨k, .active, f⟩
          | .departing _ u => some ⟨k, .departing, u⟩))

/-- R125, R126, R127, R108, R116, R129: the frame in transmission has been sent: it is counted, a HOLD sets the last-sent
quanta, the receiver is READY, or stays BLIND while another node's carrier goes on (log 34), and the transmitter goes on to
the next work. A collision in the start delimiter or the first 8 bytes raises the attempt number,
and at 8 gives the frame up; a later one gives it up at once. (The carrier of the node's own frame ends with it, log 8; the
moment at which the frame given up is counted is log 9; without a frame being sent, or beyond its end, nothing happens,
log 3.) -/
def Obligations.TransmissionSucceedsOrCollides : Prop :=
  (∀ s : State,
     (∀ x, s.bac.transmitter = .sending → s.bac.inTx = some x →
       let empty := s.bac.holdItem = none ∧ s.bac.rosterItem = none ∧ s.bac.scanItems = []
       ∃ t, exec .txSuccess s = .next t
         ∧ t = { s with
             hpu := { s.hpu with counters := t.hpu.counters }
             hc := { s.hc with lastSent := match x.frame with | .hold _ q => q | _ => s.hc.lastSent }
             bac := { s.bac with
               inTx := none, line := s.bac.line.withCarrier x.overlapped, idleTime := 0, phaseTime := 0
               receiver := if x.overlapped then .blind else .ready
               transmitter := if empty ∨ s.bac.resetPending = true then .idle else .accessWait
               busyMark := if empty ∨ s.bac.resetPending = true then s.bac.busyMark
                 else (s.bac.line.withCarrier x.overlapped).carrier } }
         ∧ s.CountsExactly t (match x.frame with | .hold _ _ => [.framesTx, .holdsSent] | _ => [.framesTx]))
     ∧ (s.bac.transmitter ≠ .sending ∨ s.bac.inTx = none → exec .txSuccess s = .next s))
  ∧ (∀ (atByte : Nat) (s : State),
       (∀ x, s.bac.transmitter = .sending → s.bac.inTx = some x → atByte ≤ x.frame.length →
         let attempt := if atByte ≤ 8 then x.item.attempt + 1 else x.item.attempt
         let givenUp := decide (8 < atByte ∨ 8 ≤ x.item.attempt + 1)
         ∃ t, exec (.collision atByte) s = .next t
           ∧ t = { s with hpu := { s.hpu with counters := t.hpu.counters }, bac := { s.bac with
               transmitter := .jamming, phaseTime := 0,
               inTx := some { x with item := { x.item with attempt := attempt }, givenUp := givenUp } } }
           ∧ s.CountsExactly t (if givenUp then [.txCollisions, .txAbandoned] else [.txCollisions]))
       ∧ (s.bac.transmitter ≠ .sending ∨ s.bac.inTx = none ∨ (∃ x, s.bac.inTx = some x ∧ x.frame.length < atByte) →
         exec (.collision atByte) s = .next s))

/-- R126, R127, R122, R123, R129, R116, R124: at the end of the jam a frame given up is gone; any other returns to the list and
waits out its backoff of (3 × own id + 5 × attempt) mod 32 slots; the end of a backoff, the start of carrier, under this
node's own frame too (log 34), and the line seen idle. (The carrier ends with the jam, or goes on where another node drives the
line, and what LINE_IDLE does while a frame is being received or sent, are log 8; with a soft reset pending the transmitter goes
to IDLE in place of BACKOFF, the reset then being a command of its own, log 13; the commands without their condition change
nothing, log 3.) -/
def Obligations.JamEndBackoffAndCarrier : Prop :=
  (∀ (busy : Bool) (s : State),
     (∀ x, s.bac.transmitter = .jamming → s.bac.inTx = some x →
       let slots := (3 * s.ownId.val + 5 * x.item.attempt) % 32
       let cleared : Bac := { s.bac with inTx := none, line := s.bac.line.withCarrier busy,
                                         receiver := if busy then .blind else .ready, idleTime := 0, phaseTime := 0 }
       let waits := fun b : Bac =>
         if s.bac.resetPending then { b with transmitter := .idle }
         else if slots = 0 then { b with transmitter := .accessWait, busyMark := cleared.line.carrier }
         else { b with transmitter := .backoff, backoff := slots }
       (x.givenUp = true →
         exec (.jamEnd busy) s = .next { s with bac :=
           if (s.bac.holdItem = none ∧ s.bac.rosterItem = none ∧ s.bac.scanItems = []) ∨ s.bac.resetPending = true then
             { cleared with transmitter := .idle }
           else { cleared with transmitter := .accessWait, busyMark := cleared.line.carrier } })
       ∧ (∀ k q, x.givenUp = false → x.frame = .hold k q →
         exec (.jamEnd busy) s = .next { s with bac := waits { cleared with holdItem := some x.item } })
       ∧ (∀ r, x.givenUp = false → x.frame = .roster r →
         exec (.jamEnd busy) s = .next (s.withBac
           (waits (if s.acu.state.inArray then { cleared with rosterItem := some x.item } else cleared))))
       ∧ (∀ f, x.givenUp = false → x.frame = .scan f → s.bac.scanItems.length < 4 →
         exec (.jamEnd busy) s = .next (s.withBac
           (waits { cleared with scanItems := ⟨x.item, { f with index := f.index + x.delta }⟩ :: s.bac.scanItems })))
       ∧ (∀ f, x.givenUp = false → x.frame = .scan f → 4 ≤ s.bac.scanItems.length →
         ∃ t, exec (.jamEnd busy) s = .next t
           ∧ t = { s with bac := waits cleared, hpu := { s.hpu with counters := t.hpu.counters } }
           ∧ s.CountsExactly t [.scanTxDropped]))
     ∧ (s.bac.transmitter ≠ .jamming ∨ s.bac.inTx = none → exec (.jamEnd busy) s = .next s))
  ∧ (∀ s : State,
       (s.bac.transmitter = .backoff → s.bac.resetPending = false →
         exec .backoffEnd s = .next { s with bac := { s.bac with
           backoff := 0, transmitter := .accessWait, busyMark := s.bac.line.carrier, phaseTime := 0 } })
       ∧ (s.bac.transmitter = .backoff → s.bac.resetPending = true →
         exec .backoffEnd s = .next { s with bac := { s.bac with backoff := 0, transmitter := .idle, phaseTime := 0 } })
       ∧ (s.bac.transmitter ≠ .backoff → exec .backoffEnd s = .next s)
       ∧ (∀ mbit, s.bac.line = .on mbit false →
         exec .carrierStart s = .next { s with bac := { s.bac with
           line := .on mbit true, receiver := if s.bac.receiver = .ready then .receiving else s.bac.receiver,
           idleTime := 0 } })
       ∧ (s.bac.line = .off ∨ s.bac.line.carrier = true → s.bac.transmitter ≠ .sending → exec .carrierStart s = .next s)
       ∧ (s.bac.line = .off ∨ s.bac.line.carrier = true → s.bac.transmitter = .sending →
         exec .carrierStart s = .next { s with bac := { s.bac with
           inTx := s.bac.inTx.map fun x => { x with overlapped := true } } })
       ∧ (s.bac.receiver = .seeking ∨ s.bac.receiver = .ready ∨ s.bac.receiver = .blind → s.bac.transmitter.drives = false →
         exec .lineIdle s = .next { s with bac := { s.bac with
           line := s.bac.line.withCarrier false, receiver := .ready,
           idleTime := if s.bac.line.carrier then 0 else s.bac.idleTime } })
       ∧ (s.bac.receiver = .off ∨ s.bac.receiver = .receiving ∨ s.bac.transmitter.drives = true →
         exec .lineIdle s = .next s))

/-- R114, R115, R117, R126, R174: every frame this part can form is taken whole by a receiver of the same WIDTH, with every field
as it was sent; and what is on DATA while a frame is sent: 16 bit times of start delimiter, then every byte of it, most
significant bit first, and in a jam 32 bit times of it; outside SENDING and JAMMING the node drives nothing. -/
def Obligations.FrameEncodingRoundTrip : Prop :=
  (∀ (w : Nat) (f : Frame), (w = 16 ∨ w = 18 ∨ w = 20 ∨ w = 24) → f.wellFormed w = true →
    f.encode.length = f.length ∧ checkFrame w f.encode = .ok f)
  ∧ (∀ s : State,
      (∀ x, s.bac.transmitter = .sending → s.bac.inTx = some x →
        s.sendingBytes = some x.frame.encode
        ∧ (∀ n, n < 16 → s.dataOut n = .delimiter)
        ∧ (∀ (i : Nat) (b : Byte) (j : Nat), x.frame.encode[i]? = some b → j < 8 →
            s.dataOut (16 + 8 * i + j) = .bit (b.getLsbD (7 - j)))
        ∧ (∀ n, 16 + 8 * x.frame.encode.length ≤ n → s.dataOut n = .released))
      ∧ (s.bac.transmitter = .jamming → ∀ n, s.dataOut n = if n < 32 then .jam else .released)
      ∧ (s.bac.transmitter ≠ .sending → s.bac.transmitter ≠ .jamming → ∀ n, s.dataOut n = .released))

/-! ### The sample port -/

/-- R135, R136, R137, R138, R8, R73, R74, R94, R122, R124: a complete capture outside a calibration: the own contribution of
the corrected samples, one for each enabled channel from channel 0 up, is filed in the current entry, which closes COMPLETE
when it was the last, its record being discarded while records are suspended, and is discarded where there is no current
entry or the entry holds the own contribution already (R73); it is placed as a SCAN frame, which takes an IDLE transmitter to
ACCESS_WAIT; or it is withheld; and *formed* is signalled. A raw value has W bits, one for each pulse of SCLK, the first the
most significant (R133). Outside CLOCKING nothing happens (log 3). (The pulses still to come at the command, and the levels
noted, are log 4 and log 36.) -/
def Obligations.CaptureCompleteWithSamples : Prop :=
  ∀ (coming : List SdataLevels) (s : State),
    let w := s.param .width
    let left := w - s.spc.clocked.length
    let next := fun i : Nat => coming.getD i (coming.getLastD s.spc.sdata)
    let raw := s.rawValues coming
    (s.spc.capture ≠ .clocking → exec (.captureComplete coming) s = .next s)
    ∧ (∀ c : Channel, raw[c].toNat < 2 ^ w
        ∧ ∀ i : Nat, w ≤ 24 → i < w → raw[c].getLsbD (w - 1 - i) =
            if i < s.spc.clocked.length then (s.spc.clocked.getD i s.spc.sdata)[c]
            else (next (i - s.spc.clocked.length))[c])
    ∧ (∀ tag, s.spc.capture = .clocking → s.calibrating = false → s.spc.tag = some tag →
      let own := s.ownContribution raw
      let idle : Spc := { s.spc with
        capture := .idle, clocked := [], sdata := next left
        raw := Vector.ofFn fun c => if c.val < s.param .channels then some raw[c] else none }
      let formed : Stu := { s.stu with formed := s.stu.formed || decide (tag.serial = s.stu.startSerial) }
      let wakes := decide (s.bac.transmitter = .idle ∧ s.bac.resetPending = false)
      let placed : Bac := { s.bac with
        scanItems := (if s.bac.scanItems.length < 4 then s.bac.scanItems else s.bac.scanItems.drop 1)
          ++ [⟨⟨0, false⟩, ⟨s.stu.index, own⟩⟩]
        transmitter := if wakes then .accessWait else s.bac.transmitter
        busyMark := if wakes then s.bac.line.carrier else s.bac.busyMark
        phaseTime := if wakes then 0 else s.bac.phaseTime }
      let dropped : List Counter := if s.bac.scanItems.length < 4 then [] else [.scanTxDropped]
      (own.node = s.ownId ∧ own.cal = false ∧ own.fault = false
        ∧ (∀ c : Channel, own.samples[c.val]? =
            if c.val < s.param .channels then some (s.corrected raw c).1 else none)
        ∧ own.samples.length ≤ 4
        ∧ (own.ovr = true ↔ ∃ c : Channel, c.val < s.param .channels ∧ (s.corrected raw c).2 = true))
      ∧ ((tag.serial ≠ s.stu.startSerial ∨ tag.kind = .solo ∨ s.selfEligible = false) →
        ∃ t, exec (.captureComplete coming) s = .next t
          ∧ t = { s with spc := idle, stu := { formed with gate := t.stu.gate, stall := t.stu.stall } })
      ∧ (tag.serial = s.stu.startSerial → tag.kind ≠ .solo → s.selfEligible = true →
        (∀ i e, s.mu.current = some i → s.mu.slots[i] = some e → inSet e.present s.ownId = true) →
        ∃ t, exec (.captureComplete coming) s = .next t
          ∧ t = { s with spc := idle, bac := placed, hpu := { s.hpu with counters := t.hpu.counters },
                         stu := { formed with gate := t.stu.gate, stall := t.stu.stall } }
          ∧ s.CountsExactly t dropped
          ∧ t.stu.gate =
              if s.stu.gate = .holding ∧ s.stu.period = .expired ∧ s.hc.selfHold = false then .released .wait
              else s.stu.gate)
      ∧ (∀ i e, tag.serial = s.stu.startSerial → tag.kind ≠ .solo → s.selfEligible = true →
        s.mu.current = some i → s.mu.slots[i] = some e → inSet e.present s.ownId = false →
        insertId e.present s.ownId ≠ e.expected →
        ∃ t, exec (.captureComplete coming) s = .next t
          ∧ t = { s with
              spc := idle, bac := t.bac, hpu := { s.hpu with counters := t.hpu.counters }
              mu := { s.mu with slots := t.mu.slots }
              stu := { formed with gate := t.stu.gate, stall := t.stu.stall } }
          ∧ t.mu.slots[i] = some { e with present := insertId e.present s.ownId,
                                          contributions := insertContribution own e.contributions }
          ∧ (∀ j : Slot, j ≠ i → t.mu.slots[j] = s.mu.slots[j])
          ∧ t.bac = placed
          ∧ s.CountsExactly t dropped
          ∧ t.stu.gate =
              if s.stu.gate = .holding ∧ s.stu.period = .expired ∧ s.hc.selfHold = false then .released .wait
              else s.stu.gate)
      ∧ (∀ i e, tag.serial = s.stu.startSerial → tag.kind ≠ .solo → s.selfEligible = true → s.SelfLaw →
        s.mu.current = some i → s.mu.slots[i] = some e → inSet e.present s.ownId = false →
        insertId e.present s.ownId = e.expected →
        let record : Record := {
          scan := e.scan, kind := .complete, expected := e.expected, present := e.expected, openTime := e.openTime
          closeTime := s.stu.time, contributions := insertContribution own e.contributions }
        ∃ t, exec (.captureComplete coming) s = .next t
          ∧ t.mu.slots[i] = none ∧ t.mu.current = none ∧ (∀ j : Slot, j ≠ i → t.mu.slots[j] = s.mu.slots[j])
          ∧ t.rcu.queue = (if s.mu.suspended then s.rcu.queue else s.rcu.queue ++ [record])
          ∧ s.CountsExactly t ([.recordsComplete] ++ (if s.mu.suspended then [.recordsDiscarded] else []) ++ dropped)
          ∧ t.stu.formed = true ∧ t.spc = idle ∧ t.acu = s.acu ∧ t.ru = s.ru
          ∧ t.bac = { placed with holdItem := t.bac.holdItem }
          ∧ (s.bac.holdItem.isSome = true ∨ s.mu.suspended = true → t.bac.holdItem = s.bac.holdItem)))

/-- R137, R138, R140 to R142, R145, with R8, R73, R74, R94, R122, R124: a complete capture during a calibration: the own
contribution is marked CAL and carries no samples; it is filed and placed as a SCAN frame, or withheld, as one with samples is,
and *formed* is signalled; counts 5 to 20 and 25 to 40 are summed; the capture of count 40 is evaluated, and the table changes at
a PASS alone. -/
def Obligations.CaptureCompleteCalibrates : Prop :=
  ∀ (coming : List SdataLevels) (s : State) (tag : CaptureTag),
    s.spc.capture = .clocking → s.calibrating = true → s.spc.tag = some tag →
    let left := s.param .width - s.spc.clocked.length
    let raw := s.rawValues coming
    let own : Contribution := { node := s.ownId, cal := true }
    let wakes := decide (s.bac.transmitter = .idle ∧ s.bac.resetPending = false)
    let placed : Bac := { s.bac with
      scanItems := (if s.bac.scanItems.length < 4 then s.bac.scanItems else s.bac.scanItems.drop 1)
        ++ [⟨⟨0, false⟩, ⟨s.stu.index, own⟩⟩]
      transmitter := if wakes then .accessWait else s.bac.transmitter
      busyMark := if wakes then s.bac.line.carrier else s.bac.busyMark
      phaseTime := if wakes then 0 else s.bac.phaseTime }
    let dropped : List Counter := if s.bac.scanItems.length < 4 then [] else [.scanTxDropped]
    let ends : List Event := if tag.count = some 40 then [.calDone] else []
    let contributes := tag.serial = s.stu.startSerial ∧ tag.kind ≠ .solo ∧ s.selfEligible = true
    let gateAfter := fun t : State => t.stu.gate =
      if s.stu.gate = .holding ∧ s.stu.period = .expired ∧ s.hc.selfHold = false then .released .wait else s.stu.gate
    s.ownContribution raw = own
    ∧ (¬contributes →
      ∃ t, exec (.captureComplete coming) s = .next t
        ∧ t = { s with spc := t.spc, stu := t.stu, hpu := { s.hpu with events := t.hpu.events } }
        ∧ t.stu.formed = (s.stu.formed || decide (tag.serial = s.stu.startSerial))
        ∧ s.RaisesExactly t ends)
    ∧ (contributes → (∀ i e, s.mu.current = some i → s.mu.slots[i] = some e → inSet e.present s.ownId = true) →
      ∃ t, exec (.captureComplete coming) s = .next t
        ∧ t = { s with spc := t.spc, stu := t.stu, bac := placed,
                       hpu := { s.hpu with events := t.hpu.events, counters := t.hpu.counters } }
        ∧ t.stu.formed = true ∧ gateAfter t ∧ s.CountsExactly t dropped ∧ s.RaisesExactly t ends)
    ∧ (∀ i e, contributes → s.mu.current = some i → s.mu.slots[i] = some e → inSet e.present s.ownId = false →
      insertId e.present s.ownId ≠ e.expected →
      ∃ t, exec (.captureComplete coming) s = .next t
        ∧ t = { s with spc := t.spc, stu := t.stu, bac := placed, mu := { s.mu with slots := t.mu.slots },
                       hpu := { s.hpu with events := t.hpu.events, counters := t.hpu.counters } }
        ∧ t.mu.slots[i] = some { e with present := insertId e.present s.ownId,
                                        contributions := insertContribution own e.contributions }
        ∧ (∀ j : Slot, j ≠ i → t.mu.slots[j] = s.mu.slots[j])
        ∧ t.stu.formed = true ∧ gateAfter t ∧ s.CountsExactly t dropped ∧ s.RaisesExactly t ends)
    ∧ (∀ i e, contributes → s.SelfLaw → s.mu.current = some i → s.mu.slots[i] = some e →
      inSet e.present s.ownId = false → insertId e.present s.ownId = e.expected →
      let record : Record := {
        scan := e.scan, kind := .complete, expected := e.expected, present := e.expected, openTime := e.openTime
        closeTime := s.stu.time, contributions := insertContribution own e.contributions }
      ∃ t, exec (.captureComplete coming) s = .next t
        ∧ t.mu.slots[i] = none ∧ t.mu.current = none ∧ (∀ j : Slot, j ≠ i → t.mu.slots[j] = s.mu.slots[j])
        ∧ t.rcu.queue = (if s.mu.suspended then s.rcu.queue else s.rcu.queue ++ [record])
        ∧ s.CountsExactly t ([.recordsComplete] ++ (if s.mu.suspended then [.recordsDiscarded] else []) ++ dropped)
        ∧ t.eventSet .calDone = (s.eventSet .calDone || decide (tag.count = some 40))
        ∧ t.stu.formed = true ∧ t.acu = s.acu ∧ t.ru = s.ru
        ∧ t.bac = { placed with holdItem := t.bac.holdItem }
        ∧ (s.bac.holdItem.isSome = true ∨ s.mu.suspended = true → t.bac.holdItem = s.bac.holdItem))
    ∧ (tag.count ≠ some 40 →
      ∃ t, exec (.captureComplete coming) s = .next t
        ∧ t.spc = { s.spc with
            capture := .idle, clocked := []
            sdata := coming.getD left (coming.getLastD s.spc.sdata)
            raw := Vector.ofFn fun c => if c.val < s.param .channels then some raw[c] else none
            sums := t.spc.sums }
        ∧ (∀ c : Channel, t.spc.sums[c] =
            match tag.count with
            | some n =>
              if c.val < s.param .channels ∧ 5 ≤ n ∧ n ≤ 20 then
                { s.spc.sums[c] with zero := s.spc.sums[c].zero + s.coded raw c }
              else if c.val < s.param .channels ∧ 25 ≤ n ∧ n ≤ 40 then
                { s.spc.sums[c] with reference := s.spc.sums[c].reference + s.coded raw c }
              else s.spc.sums[c]
            | none => s.spc.sums[c]))
    ∧ (tag.count = some 40 →
      let verdict := fun c : Channel => evaluateChannel (s.param .width)
        ⟨s.spc.sums[c].zero, s.spc.sums[c].reference + s.coded raw c⟩
      ∃ t, exec (.captureComplete coming) s = .next t
        ∧ t.spc.phase = .idle ∧ t.spc.count = 0 ∧ t.spc.insel = .normal ∧ t.spc.capture = .idle
        ∧ t.eventSet .calDone = true ∧ t.stu.solo = false
        ∧ ((∀ c : Channel, c.val < s.param .channels → ∃ g, verdict c = .ok g) →
            t.spc.result = .pass
            ∧ ∀ c : Channel,
                (∀ g, c.val < s.param .channels → verdict c = .ok g → t.spc.table[c] = g)
                ∧ (s.param .channels ≤ c.val → t.spc.table[c] = s.spc.table[c]))
        ∧ (∀ (c : Channel) (cause : CalCause), c.val < s.param .channels → verdict c = .error cause →
            (∀ d : Channel, d < c → ∃ g, verdict d = .ok g) →
            t.spc.result = .fail cause c ∧ t.spc.table = s.spc.table))

/-- R132 to R134, R137, R138, R143, with R73, R74, R94, R122, R124: the end of the CONVERT pulse; the fall of an SDATA line, which
makes its channel ready in WAITING when the line was high, the last of which starts the clocking; the pulses of SCLK, each taking
the levels of the lines, up to the W-th; and the timeout, which forms a FAULT contribution and is counted; the contribution is
withheld; or placed as a SCAN frame, which drops the oldest of a full SCAN part, and filed before it, which can complete its
entry, or, with no current entry or the own id present in it already, discarded by the MU (R73); in an
accumulation scan it ends a calibration with FAULT and the lowest channel not ready. Outside their states nothing happens, but
that a level of a line is noted (log 3, log 36). -/
def Obligations.CaptureWaitsOrTimesOut : Prop :=
  (∀ s : State,
      (s.spc.capture ≠ .waiting → exec .sampleTimeout s = .next s)
      ∧ (∀ tag, s.spc.capture = .waiting → s.spc.tag = some tag →
        let summed := tag.count.any fun n => decide (5 ≤ n ∧ n ≤ 20) || decide (25 ≤ n ∧ n ≤ 40)
        let fails := s.calibrating && summed
        let own : Contribution := { node := s.ownId, fault := true }
        let scanItems := (if s.bac.scanItems.length < 4 then s.bac.scanItems else s.bac.scanItems.drop 1)
          ++ [⟨⟨0, false⟩, ⟨s.stu.index, own⟩⟩]
        let dropped : List Counter := if s.bac.scanItems.length < 4 then [] else [.scanTxDropped]
        let wakes := decide (s.bac.transmitter = .idle ∧ s.bac.resetPending = false)
        let portAfter := fun t : State =>
          (fails = false → t.spc = { s.spc with capture := .idle })
          ∧ ∀ c : Channel, fails = true → c.val < s.param .channels → s.spc.ready[c] = false →
              (∀ d : Channel, d < c → s.spc.ready[d] = true) →
              t.spc = { s.spc with
                capture := .idle, result := .fail .fault c, phase := .idle, count := 0, insel := .normal
                sums := Vector.replicate 4 ⟨0, 0⟩ }
        ((tag.serial ≠ s.stu.startSerial ∨ tag.kind = .solo ∨ s.selfEligible = false) →
          (s.calibrating = false ∨ summed = false →
            ∃ t, exec .sampleTimeout s = .next t
              ∧ t = { s with
                  spc := { s.spc with capture := .idle }
                  hpu := { s.hpu with counters := t.hpu.counters }
                  stu := { s.stu with
                    formed := s.stu.formed || decide (tag.serial = s.stu.startSerial), gate := t.stu.gate, stall := t.stu.stall } }
              ∧ s.CountsExactly t [.sampleFaults])
          ∧ (∀ c : Channel, s.calibrating = true → summed = true → c.val < s.param .channels → s.spc.ready[c] = false →
              (∀ d : Channel, d < c → s.spc.ready[d] = true) →
            ∃ t, exec .sampleTimeout s = .next t
              ∧ t.spc.result = .fail .fault c ∧ t.spc.table = s.spc.table ∧ t.spc.phase = .idle ∧ t.spc.insel = .normal
              ∧ t.spc.count = 0 ∧ t.spc.capture = .idle ∧ t.stu.solo = false
              ∧ s.CountsExactly t [.sampleFaults] ∧ s.RaisesExactly t [.calDone] ∧ t.mu = s.mu ∧ t.bac = s.bac))
        ∧ (tag.serial = s.stu.startSerial → tag.kind ≠ .solo → s.selfEligible = true →
            (∀ i e, s.mu.current = some i → s.mu.slots[i] = some e → inSet e.present s.ownId = true) →
          ∃ t, exec .sampleTimeout s = .next t
            ∧ t = { s with
                spc := t.spc, stu := t.stu, hpu := { s.hpu with events := t.hpu.events, counters := t.hpu.counters }
                bac := { s.bac with
                  scanItems := scanItems
                  transmitter := if wakes then .accessWait else s.bac.transmitter
                  busyMark := if wakes then s.bac.line.carrier else s.bac.busyMark
                  phaseTime := if wakes then 0 else s.bac.phaseTime } }
            ∧ t.stu.formed = true ∧ (s.stu.solo = false → t.stu = { s.stu with formed := true, gate := t.stu.gate, stall := t.stu.stall })
            ∧ t.stu.gate =
                (if s.stu.gate = .holding ∧ s.stu.period = .expired ∧ s.hc.selfHold = false then .released .wait
                 else s.stu.gate)
            ∧ portAfter t
            ∧ s.CountsExactly t ([.sampleFaults] ++ dropped) ∧ s.RaisesExactly t (if fails then [.calDone] else []))
        ∧ (∀ i e, tag.serial = s.stu.startSerial → tag.kind ≠ .solo → s.selfEligible = true → s.SelfLaw →
            s.mu.current = some i → s.mu.slots[i] = some e → inSet e.present s.ownId = false →
          let stored : Entry := { e with present := insertId e.present s.ownId,
                                         contributions := insertContribution own e.contributions }
          let completes := decide (stored.present = e.expected)
          ∃ t, exec .sampleTimeout s = .next t
            ∧ t.mu.slots[i] = (if completes then none else some stored)
            ∧ t.mu.current = (if completes then none else some i)
            ∧ (∀ j : Slot, j ≠ i → t.mu.slots[j] = s.mu.slots[j])
            ∧ t.rcu.queue =
                (if completes && !s.mu.suspended then s.rcu.queue ++ [stored.toRecord .complete s.stu.time]
                 else s.rcu.queue)
            ∧ t.bac.scanItems = scanItems
            ∧ (wakes = true → t.bac.transmitter = .accessWait)
            ∧ t.stu.formed = true ∧ portAfter t ∧ t.eventSet .calDone = (s.eventSet .calDone || fails)
            ∧ s.CountsExactly t ([.sampleFaults]
                ++ (if completes then [.recordsComplete] else [])
                ++ (if completes && s.mu.suspended then [.recordsDiscarded] else [])
                ++ dropped)
            ∧ t.acu = s.acu ∧ t.cs = s.cs)))
  ∧ (∀ s : State,
      (s.spc.capture = .strobe → exec .convertPulseEnd s = .next { s with spc := { s.spc with capture := .waiting } })
      ∧ (s.spc.capture ≠ .strobe → exec .convertPulseEnd s = .next s)
      ∧ (∀ c : Channel,
        let falls := s.spc.capture = .waiting ∧ c.val < s.param .channels ∧ s.spc.sdata[c] = true
        let fallen := s.spc.sdata.set c false
        let all := ∀ d : Channel, d.val < s.param .channels → d = c ∨ s.spc.ready[d] = true
        (falls → ∃ t, exec (.channelReady c) s = .next t
          ∧ (∀ d : Channel, t.spc.ready[d] = (decide (d = c) || s.spc.ready[d]))
          ∧ (all → t = { s with spc := { s.spc with
              sdata := fallen, ready := t.spc.ready, capture := .clocking, clocked := [], clockTime := 0 } })
          ∧ (¬all → t = { s with spc := { s.spc with sdata := fallen, ready := t.spc.ready } }))
        ∧ (¬falls → exec (.channelReady c) s = .next { s with spc := { s.spc with sdata := fallen } })))
  ∧ (∀ (s : State) (rest : List PinEvent), s.pending = [] →
      let p := s.withPins rest
      let pulses := s.hpu.resetnLow = false ∧ s.spc.capture = .clocking ∧ s.spc.clocked.length < s.param .width
      (∀ c : Channel,
        (s.pins = .sdata c true :: rest → step s = .next (p.withSpc { p.spc with sdata := p.spc.sdata.set c true }))
        ∧ (s.pins = .sdata c false :: rest →
            (s.hpu.resetnLow = false → step s = exec (.channelReady c) p)
            ∧ (s.hpu.resetnLow = true →
                step s = .next (p.withSpc { p.spc with sdata := p.spc.sdata.set c false }))))
      ∧ (s.pins = .sclkPulse :: rest →
          (pulses → step s = .next (p.withSpc { p.spc with clocked := p.spc.clocked ++ [p.spc.sdata] }))
          ∧ (¬pulses → step s = .next p)))

/-- R139, R10: CALIBRATE begins a calibration in CONFIGURED, under solo pacing, and in MEMBER; in every other case it is
refused. (That a capture in progress loses an older calibration's count is log 19.) -/
def Obligations.CalibrateCommand : Prop :=
  ∀ s : State, s.hpu.resetnLow = false →
    let begun : Spc := { s.spc with
      result := .none, count := 0, sums := Vector.replicate 4 ⟨0, 0⟩, phase := .zeroSettle, insel := .zero,
      tag := s.spc.tag.map fun g => { g with count := none } }
    let accepted := s.portAfter .calibrate ⟨.accepted, .none, .command .calibrate⟩
    (s.calibrating = false → s.acu.state = .configured →
      exec .calibrate s = .next { s with
        hpu := accepted, spc := begun
        stu := { s.stu with solo := true, soloMade := false, period := .running 0, formed := false } })
    ∧ (s.calibrating = false → s.acu.state = .member →
      exec .calibrate s = .next { s with hpu := accepted, spc := begun })
    ∧ (s.calibrating = true ∨ (s.acu.state ≠ .configured ∧ s.acu.state ≠ .member) →
      exec .calibrate s = .next { s with hpu := s.portAfter .calibrate ⟨.wrongState, .none, .command .calibrate⟩ })

/-- R135, R136, R142: the coded value of a raw value by CODING; the corrected value, the product rounded to the nearest whole
number, halves away from zero, held within W bits, the saturations being the two cases in which it is not; and the
evaluation of one channel's calibration sums, the gain being rounded in the same way. -/
def Obligations.CorrectionRoundsAndSaturates : Prop :=
  (∀ (s : State) (raw : Vector RawValue 4) (c : Channel),
      let w := s.param .width
      let v := raw[c].toNat % 2 ^ w
      1 ≤ w → w ≤ 24 →
      (s.param .coding = 0 → s.coded raw c = if v < 2 ^ (w - 1) then (v : Int) else (v : Int) - 2 ^ w)
      ∧ (s.param .coding = 1 → s.coded raw c = (v : Int) - 2 ^ (w - 1))
      ∧ s.corrected raw c = correctedValue w s.spc.table[c] (s.coded raw c))
  ∧ (∀ (w : Nat) (c : Correction) (x r : Int), 1 ≤ w →
      let product := (x - c.offset) * c.gain
      let low : Int := -(2 ^ (w - 1))
      let high : Int := 2 ^ (w - 1) - 1
      (2 * (65536 * r - product).natAbs < 65536
        ∨ (2 * (65536 * r - product).natAbs = 65536 ∧ product.natAbs < 65536 * r.natAbs)) →
      (r < low → correctedValue w c x = (low, true))
      ∧ (high < r → correctedValue w c x = (high, true))
      ∧ (low ≤ r → r ≤ high → correctedValue w c x = (r, false)))
  ∧ (∀ (w : Nat) (sums : Sums) (g : Nat), 1 ≤ w →
      let o := Int.tdiv sums.zero 16
      let span := Int.tdiv sums.reference 16 - o
      let target : Int := Int.tdiv (99 * (2 ^ (w - 1) - 1)) 100
      let inRange := o.natAbs ≤ 2 ^ (w - 1) / 8
      let rounds := 2 * (span * g - target * 65536).natAbs < span.natAbs
        ∨ (2 * (span * g - target * 65536).natAbs = span.natAbs ∧ target * 65536 < span * g)
      (¬inRange → evaluateChannel w sums = .error .offset)
      ∧ (inRange → span ≤ 0 → evaluateChannel w sums = .error .gain)
      ∧ (inRange → 0 < span → rounds → (g < 32769 ∨ 131071 < g) → evaluateChannel w sums = .error .gain)
      ∧ (inRange → 0 < span → rounds → 32769 ≤ g → g ≤ 131071 → evaluateChannel w sums = .ok ⟨o, g⟩))

/-! ### The record unit -/

/-- R91, R92, R94, R88, R95, R102, R106: RELEASE_RECORD takes the head record away, FLUSH_RECORDS all; at QUEUE_LOW the
backlog ends, and with it self-hold where FREEZE does not keep it. SUSPEND_RECORDS sets the suspend flag and RESUME_RECORDS
clears it, in every state, with ACCEPTED. -/
def Obligations.RecordCommands : Prop :=
  (∀ s : State, s.hpu.resetnLow = false → s.HoldControlLaw →
     let removes := fun (c : Instr) (name : HostCommand) (left : List Record) =>
       let accepted := s.portAfter name ⟨.accepted, .none, .command name⟩
       (s.rcu.backlog = false ∨ s.param .queueLow < left.length →
         exec c s = .next { s with rcu := { s.rcu with queue := left, pointer := 0 }, hpu := accepted })
       ∧ (s.rcu.backlog = true → left.length ≤ s.param .queueLow →
         ∃ t, exec c s = .next t
           ∧ t = { s with rcu := { s.rcu with queue := left, pointer := 0, backlog := false },
                          hpu := { accepted with events := t.hpu.events }, hc := t.hc, bac := t.bac, stu := t.stu }
           ∧ s.RaisesExactly t [.queueLow]
           ∧ t.hc = (if s.hc.selfHold && !s.hc.freezeReason then
               { s.hc with backlogReason := false, selfHold := false, requested := 0, renewal := .stopped }
             else { s.hc with backlogReason := false })
           ∧ ((s.hc.selfHold && !s.hc.freezeReason) = true → t.bac.holdItem.isSome = true)
           ∧ ((s.hc.selfHold && !s.hc.freezeReason) = false → t.bac = s.bac ∧ t.stu = s.stu)
           ∧ t.stu = { s.stu with gate := t.stu.gate, stall := t.stu.stall })
     (∀ r rest, s.rcu.queue = r :: rest → removes .releaseRecord .releaseRecord rest)
     ∧ (s.rcu.queue = [] → exec .releaseRecord s = .next { s with
         hpu := s.portAfter .releaseRecord ⟨.empty, .none, .command .releaseRecord⟩ })
     ∧ removes .flushRecords .flushRecords [])
  ∧ (∀ s : State, s.hpu.resetnLow = false →
       exec .suspendRecords s = .next { s with
         mu := { s.mu with suspended := true }
         hpu := s.portAfter .suspendRecords ⟨.accepted, .none, .command .suspendRecords⟩ }
       ∧ exec .resumeRecords s = .next { s with
         mu := { s.mu with suspended := false }
         hpu := s.portAfter .resumeRecords ⟨.accepted, .none, .command .resumeRecords⟩ })

/-- R88, R89, R97, R98, R99, R161, R175: a read of the record data word returns the head's word at the pointer and moves the
pointer on, up to 255; a write of the pointer is stored modulo 256, and one of PROJ_DESC with p modulo 128 and n at most 32;
and the projection view: the sample of array position p + i, or 0, and the presence mask. (A read that has been taken stands
at its first bit, a write at DONE, log 12.) -/
def Obligations.RecordWindowAndProjection : Prop :=
  (∀ (s : State) (value : Word), s.hpu.resetnLow = false →
     (s.rcu.queue = [] →
       exec .recordDataRead s = .next { s with hpu := { s.hpu with transaction := .read 0, readWord := 0 } })
     ∧ (∀ r rest, s.rcu.queue = r :: rest →
       exec .recordDataRead s = .next { s with
         hpu := { s.hpu with transaction := .read 0, readWord := r.words.getD s.rcu.pointer.toNat 0 }
         rcu := { s.rcu with pointer := if s.rcu.pointer = 255 then 255 else s.rcu.pointer + 1 } })
     ∧ exec (.recordPointerWrite value) s = .next { s with
         hpu := { s.hpu with transaction := .done }
         rcu := { s.rcu with pointer := BitVec.ofNat 8 (value.toNat % 256) } }
     ∧ exec (.projDescWrite value) s = .next { s with
         hpu := { s.hpu with transaction := .done }
         rcu := { s.rcu with
           projFirst := BitVec.ofNat 7 (value.toNat % 128)
           projCount := BitVec.ofNat 6 (min (value.toNat / 256 % 256) 32) } })
  ∧ (∀ (s : State) (i : Fin 32),
       let q := s.rcu.projFirst.toNat + i.val
       let node : NodeId := ⟨q / 4 % 32, Nat.mod_lt _ (by decide)⟩
       inSet s.projectionMask i = (s.projection i.val).isSome
       ∧ (s.projection i.val = none → s.projectionWord i.val = 0)
       ∧ (∀ x, s.projection i.val = some x → s.projectionWord i.val = BitVec.ofInt 32 x)
       ∧ (s.rcu.queue = [] → s.projection i.val = none)
       ∧ (∀ r rest, s.rcu.queue = r :: rest →
         (s.rcu.projCount.toNat ≤ i.val ∨ 128 ≤ q → s.projection i.val = none)
         ∧ (i.val < s.rcu.projCount.toNat → q < 128 → inSet r.present node = false → s.projection i.val = none)
         ∧ (∀ c, i.val < s.rcu.projCount.toNat → q < 128 → inSet r.present node = true →
             findContribution r.contributions node = some c →
             s.projection i.val = if c.cal || c.fault then none else c.samples[q % 4]?)))

/-! ### The configuration -/

/-- R156, R155, R42, R45, R114: COMMIT_CONFIG commits a valid set whole, and the part enters CONFIGURED, or LISTENING with
AUTO_JOIN; an invalid set is answered with its error code; outside AWAITING_CONFIG the command is refused. The line comes on
with carrier absent and no idle time yet (DEDUCED, log 25). A write of PARAM_VALUE stores the word unchecked in
AWAITING_CONFIG, and is refused elsewhere; it is for the parameter that PARAM_SEL named when its transaction began, so one
in progress when a soft reset takes effect with CFGSRC low is stored in AWAITING_CONFIG (R167; the choice of that parameter
is log 35). -/
def Obligations.CommitConfigAndParamValue : Prop :=
  (∀ s : State, s.hpu.resetnLow = false →
     (s.acu.state ≠ .awaitingConfig →
       exec .commitConfig s = .next { s with
         hpu := s.portAfter .commitConfig ⟨.wrongState, .none, .command .commitConfig⟩ })
     ∧ (∀ e, s.acu.state = .awaitingConfig → validate s.cs.written = some e →
       exec .commitConfig s = .next { s with
         cs := { s.cs with error := e }, hpu := s.portAfter .commitConfig ⟨.invalid, e, .command .commitConfig⟩ })
     ∧ (s.acu.state = .awaitingConfig → validate s.cs.written = none → s.bac.line = .off →
       let committed : Cs := { s.cs with
         committed := s.cs.written, digest := digestOf s.cs.written, load := .committed, error := .none }
       let bus : Bac := { s.bac with
         line := .on (s.cs.written.value .bitRate).toNat false, receiver := .seeking, transmitter := .idle, idleTime := 0 }
       let accepted := s.portAfter .commitConfig ⟨.accepted, .none, .command .commitConfig⟩
       (s.cs.written.value .autoJoin = 0 →
         exec .commitConfig s = .next { s with
           cs := committed, bac := bus, hpu := accepted, acu := { s.acu with state := .configured } })
       ∧ (s.cs.written.value .autoJoin = 1 → s.stu.solo = false → s.hc.selfHold = false →
         exec .commitConfig s = .next { s with
           cs := committed, bac := bus, hpu := accepted, stu := { s.stu with gate := .observing }
           acu := { s.acu with state := .listening, listen := .running 0, admission := none, matchingSeen := false,
                               mismatchingSeen := false, reason := .none } })))
  ∧ (∀ (value : Word) (selector : BitVec 5) (s : State), s.hpu.resetnLow = false →
       let x := s.hpu.transaction
       (∃ bits, x = .address selector bits) ∨ (∃ address bits, x = .write selector address bits)
         ∨ (((∃ low, x = .idle low) ∨ (∃ n, x = .read n) ∨ x = .done) ∧ selector = s.cs.selector) →
       let answered := fun r : CommandResult => { s.hpu with transaction := .done, result := s.resultAfter r }
       (∀ p : Param, s.cs.load = .empty → selector.toNat = p.number →
         ∃ t, exec (.paramValueWrite value) s = .next t
           ∧ t = { s with cs := { s.cs with written := t.cs.written }, hpu := answered ⟨.accepted, .none, .paramWrite⟩ }
           ∧ t.cs.written.value p = value ∧ (∀ q : Param, q ≠ p → t.cs.written.value q = s.cs.written.value q))
       ∧ (s.cs.load = .empty → (selector = 0 ∨ 24 ≤ selector.toNat) →
         exec (.paramValueWrite value) s = .next { s with
           hpu := answered ⟨.invalid, .unknownParam (BitVec.ofNat 8 selector.toNat), .paramWrite⟩ })
       ∧ (s.cs.load ≠ .empty →
         exec (.paramValueWrite value) s = .next { s with hpu := answered ⟨.wrongState, .none, .paramWrite⟩ }))
  ∧ (∀ (value : Word) (p : Param) (selector : BitVec 5) (s : State), s.hpu.resetnLow = false →
       s.bac.resetPending = true → s.bac.inTx = none → selector.toNat = p.number →
       ((∃ bits, s.hpu.transaction = .address selector bits)
         ∨ ∃ address bits, s.hpu.transaction = .write selector address bits) →
       ∃ r t, exec (.softResetTakesEffect false) s = .next r ∧ r.acu.state = .awaitingConfig
         ∧ exec (.paramValueWrite value) r = .next t
         ∧ t = { r with
           cs := { r.cs with written := t.cs.written }
           hpu := { r.hpu with transaction := .done, result := ⟨.accepted, .none, .paramWrite⟩ } }
         ∧ t.cs.selector = 0 ∧ t.cs.written.value p = value
         ∧ (∀ q : Param, q ≠ p → t.cs.written.value q = paramDefaults.value q))

/-- R150, R151, R154, R41, R45, R114: the end of the image read, once its last cycle of ECK has ended: of the bytes clocked in it
commits a good and valid image and raises LOAD_DONE, and the part enters CONFIGURED, or LISTENING with AUTO_JOIN, or it raises
CONFIG_ERROR, keeps the error code, and waits for the host. The line comes on with carrier absent and no idle time yet (DEDUCED,
log 25). Before the read is over, and outside LOADING, nothing happens (log 3; the level of EDI that comes with the command is
log 4). -/
def Obligations.ImageReadEndOutcomes : Prop :=
  ∀ (edi : Bool) (s : State),
    let image := s.cs.eeprom.image
    let ended := s.cs.eeprom.eckHigh = false ∧ imageReadCycles image ≤ s.cs.eeprom.eckCycles
    let eeprom : EepromPort := { s.cs.eeprom with edi := edi }
    let fails := fun e : ErrorCode => ∃ t, exec (.imageReadEnd edi) s = .next t
      ∧ t = { s with cs := { s.cs with error := e, load := .empty, written := paramDefaults, eeprom := eeprom },
                     acu := { s.acu with state := .awaitingConfig }, hpu := { s.hpu with events := t.hpu.events } }
      ∧ s.RaisesExactly t [.configError]
    (s.acu.state ≠ .loading ∨ ¬ended → exec (.imageReadEnd edi) s = .next s)
    ∧ (∀ e, s.acu.state = .loading → ended → checkImage image = .error e → fails e)
    ∧ (∀ records e, s.acu.state = .loading → ended → checkImage image = .ok records →
        validate (loadedSet records) = some e → fails e)
    ∧ (∀ records, s.acu.state = .loading → ended → checkImage image = .ok records → validate (loadedSet records) = none →
        s.bac.line = .off → s.stu.solo = false → s.hc.selfHold = false →
        let set := loadedSet records
        let auto := set.value .autoJoin = 1
        ∃ t, exec (.imageReadEnd edi) s = .next t
          ∧ t = { s with
              cs := { s.cs with written := set, committed := set, digest := digestOf set, load := .committed,
                                error := .none, eeprom := eeprom }
              bac := { s.bac with line := .on (set.value .bitRate).toNat false, receiver := .seeking,
                                  transmitter := .idle, idleTime := 0 }
              hpu := { s.hpu with events := t.hpu.events }
              stu := if auto then { s.stu with gate := .observing } else s.stu
              acu := if auto then
                  { s.acu with state := .listening, listen := .running 0, admission := none, matchingSeen := false,
                               mismatchingSeen := false, reason := .none }
                else { s.acu with state := .configured } }
          ∧ s.RaisesExactly t [.loadDone])

/-- R148, R152, R153, R157, R115: a set is valid when every parameter is in its range and the five cross checks hold; otherwise
the code names the lowest-numbered failing parameter, RANGE before CROSS; and the digest is the CRC over the twelve bytes of
the six array-wide values. -/
def Obligations.ValidationAndDigest : Prop :=
  (∀ set : ParamSet,
    let v := fun p : Param => (set.value p).toNat
    let range : Param → Nat × Nat := fun p => match p with
      | .nodeId => (0, 31) | .channels => (1, 4) | .width => (16, 24) | .coding => (0, 1) | .bitRate => (2, 8)
      | .scanPeriod => (50, 65535) | .sampleTimeout => (10, 65535) | .closeLag => (1, 7) | .missLimit => (1, 15)
      | .rosterInterval => (8, 255) | .joinLead => (2, 15) | .listenTimeout => (1, 255) | .stallLimit => (1, 255)
      | .holdQuanta => (10, 65535) | .queueHigh => (2, 30) | .queueLow => (0, 29)
      | .win0Start | .win1Start | .win2Start => (0, 31) | .win0Range | .win1Range | .win2Range => (0, 32)
      | .autoJoin => (0, 1)
    let inRange := fun p : Param => (range p).1 ≤ v p ∧ v p ≤ (range p).2
      ∧ (p = .width → v p = 16 ∨ v p = 18 ∨ v p = 20 ∨ v p = 24) ∧ (p = .bitRate → v p = 2 ∨ v p = 4 ∨ v p = 8)
    let crossFails : Param → Prop := fun p => match p with
      | .queueLow => inRange .queueHigh ∧ inRange .queueLow ∧ v .queueHigh ≤ v .queueLow
      | .queueHigh => inRange .closeLag ∧ inRange .queueHigh ∧ 31 < v .queueHigh + v .closeLag
      | .win0Range => inRange .win0Start ∧ inRange .win0Range ∧ 32 < v .win0Start + v .win0Range
      | .win1Range => inRange .win1Start ∧ inRange .win1Range ∧ 32 < v .win1Start + v .win1Range
      | .win2Range => inRange .win2Start ∧ inRange .win2Range ∧ 32 < v .win2Start + v .win2Range
      | _ => False
    let first := fun p : Param => ∀ q : Param, q.number < p.number → inRange q ∧ ¬crossFails q
    (validate set = none ↔ ∀ p, inRange p ∧ ¬crossFails p)
    ∧ (∀ p, first p → ¬inRange p → validate set = some (.range p))
    ∧ (∀ p, first p → inRange p → crossFails p → validate set = some (.cross p))
    ∧ digestOf set = crc16 ([v .width, v .bitRate, v .closeLag, v .missLimit, v .rosterInterval, v .joinLead].flatMap
        fun x => [BitVec.ofNat 8 (x / 256), BitVec.ofNat 8 x]))
  ∧ paramDefaults.toList.map BitVec.toNat =
      [0, 4, 24, 0, 4, 1000, 800, 2, 3, 32, 4, 20, 50, 1000, 24, 8, 0, 0, 0, 0, 0, 0, 0]
  ∧ crc16 [] = 0xFFFF
  ∧ (∀ (bytes : List Byte) (b : Byte),
      let shift := fun c : BitVec 16 => if c.getLsbD 15 then (c <<< 1) ^^^ 0x1021#16 else c <<< 1
      crc16 (bytes ++ [b]) =
        shift (shift (shift (shift (shift (shift (shift (shift (crc16 bytes ^^^ (b.setWidth 16 <<< 8))))))))))

/-- R150, R151: what the CS sends and how many bytes it clocks in; the five checks of an image in their order, an undriven
byte reading $FF; the loaded set, the last record of a parameter winning and the rest keeping their defaults; and the read
edge by edge: at each rising edge of ECK the level of EDI is sampled, after the first 24 cycles as the next bit of the image,
every byte most significant bit first; each falling edge ends a cycle; ECS is low, and ECK moves, until the cycles that the
first two bytes call for have ended, and then no more. (EDO beyond its first 24 cycles and ECK outside the read are free
values, that a cycle begins with ECK low is DEDUCED, log 33; the pin changes wait in the queue of log 32.) -/
def Obligations.ImageReadAndChecks : Prop :=
  (∀ image : List Byte,
    let b := fun i : Nat => image.getD i 0xFF
    let n := (b 1).toNat
    let good := b 0 = 0xA5 ∧ 1 ≤ n ∧ n ≤ 30
    let crcGood := crc16 ((List.range (2 + 3 * n)).map b) = b (2 + 3 * n) ++ b (3 + 3 * n)
    let named := fun i : Nat => 1 ≤ (b (2 + 3 * i)).toNat ∧ (b (2 + 3 * i)).toNat ≤ 23
    imageLength image = (if good then 3 * n + 4 else 2) ∧ imageReadCycles image = 24 + 8 * imageLength image
    ∧ (b 0 = 0xFF → b 1 = 0xFF → checkImage image = .error .noImage)
    ∧ (¬(b 0 = 0xFF ∧ b 1 = 0xFF) → b 0 ≠ 0xA5 → checkImage image = .error .badHeader)
    ∧ (b 0 = 0xA5 → n = 0 ∨ 30 < n → checkImage image = .error .badLength)
    ∧ (good → ¬crcGood → checkImage image = .error .badChecksum)
    ∧ (∀ i, good → crcGood → i < n → ¬named i → (∀ j, j < i → named j) →
        checkImage image = .error (.unknownParam (b (2 + 3 * i))))
    ∧ (good → crcGood → (∀ i, i < n → named i) →
        checkImage image = .ok ((List.range n).map fun i => (b (2 + 3 * i), b (3 + 3 * i) ++ b (4 + 3 * i)))))
  ∧ (∀ (records : List (Byte × BitVec 16)) (p : Param),
    ((∀ r ∈ records, r.1.toNat ≠ p.number) → (loadedSet records).value p = paramDefaults.value p)
    ∧ (∀ before r after, records = before ++ r :: after → r.1.toNat = p.number → (∀ q ∈ after, q.1.toNat ≠ p.number) →
        ((loadedSet records).value p).toNat = r.2.toNat))
  ∧ (∀ c : Cs,
    let p := c.eeprom
    let ended := p.eckHigh = false ∧ imageReadCycles p.image ≤ p.eckCycles
    p.image.length = p.bits.length / 8
    ∧ (∀ (i : Nat) (b : Byte), p.image[i]? = some b → ∀ j, j < 8 → p.bits[8 * i + j]? = some (b.getLsbD (7 - j)))
    ∧ (p.readOver = true ↔ ended)
    ∧ (c.load ≠ .reading ∨ ended → c.eckEdge = c)
    ∧ (c.load = .reading → ¬ended → c.eckEdge = { c with eeprom :=
        if p.eckHigh then { p with eckHigh := false, eckCycles := p.eckCycles + 1 }
        else { p with eckHigh := true, bits := if p.eckCycles < 24 then p.bits else p.bits ++ [p.edi] } })
    ∧ (p.Lawful → ended → p.eckCycles = imageReadCycles p.image ∧ p.image.length = imageLength p.image))
  ∧ (∀ (s : State) (rest : List PinEvent), s.pending = [] →
    let p := s.withPins rest
    (∀ high, s.pins = .edi high :: rest →
      step s = .next (p.withCs { p.cs with eeprom := { p.cs.eeprom with edi := high } }))
    ∧ (s.pins = .eckEdge :: rest → step s = .next (p.withCs p.cs.eckEdge)))
  ∧ (∀ s : State,
    let p := s.cs.eeprom
    (s.ecsLow = true ↔ s.cs.load = .reading ∧ p.readOver = false)
    ∧ (s.ecsLow = true → s.eck = p.eckHigh)
    ∧ (s.cs.load = .reading → p.eckCycles < 24 → (s.edo = true ↔ p.eckCycles = 6 ∨ p.eckCycles = 7)))

/-! ### The host port -/

/-- R168 to R170, R172: STAT_HALF is on while any counter holds 2^31 or more; the flags and the level show in EVENTS at their
own positions; HIRQ is driven low while a set flag, or STAT_HALF, has its mask indication on, and in no other case; a write
of EVENTS clears the flags written 1, one of EVENT_MASK sets all 16 indications and no flag, and they read back; a write of
STAT_VALUE sets the selected counter, or takes the value from it, not below 0. Reset turns the mask off. (A write that has
been taken stands at DONE, log 12.) -/
def Obligations.EventsMaskAndStatistics : Prop :=
  (∀ s : State,
    (s.statHalf = true ↔ ∃ c : Counter, 2147483648 ≤ (s.counter c).toNat)
    ∧ s.eventsWord.getLsbD 15 = s.statHalf
    ∧ (∀ e : Event, s.eventsWord.getLsbD e.position = s.eventSet e)
    ∧ (s.hirqLow = true ↔
      (∃ e : Event, s.eventSet e = true ∧ s.hpu.mask.getLsbD e.position = true)
      ∨ (s.statHalf = true ∧ s.hpu.mask.getLsbD 15 = true))
    ∧ s.readRegister 0x03 = BitVec.ofNat 32 s.hpu.mask.toNat)
  ∧ State.reset.hpu.mask = 0
  ∧ (∀ (value : Word) (s : State), s.hpu.resetnLow = false →
    exec (.eventMaskWrite value) s = .next { s with
      hpu := { s.hpu with transaction := .done, mask := BitVec.ofNat 16 value.toNat } }
    ∧ (∃ t, exec (.eventsWrite value) s = .next t
      ∧ t = { s with hpu := { s.hpu with transaction := .done, events := t.hpu.events } }
      ∧ ∀ e : Event, t.eventSet e = (s.eventSet e && !value.getLsbD e.position))
    ∧ (28 ≤ s.hpu.statSel.toNat →
      exec (.statValueWrite value) s = .next { s with hpu := { s.hpu with transaction := .done } })
    ∧ (∀ c : Counter, s.hpu.statSel.toNat = c.index.val →
      ∃ t, exec (.statValueWrite value) s = .next t
        ∧ t = { s with hpu := { s.hpu with transaction := .done, counters := t.hpu.counters } }
        ∧ t.counter c = (match s.hpu.statMode with
            | .direct => value
            | .decrement => BitVec.ofNat 32 ((s.counter c).toNat - value.toNat))
        ∧ ∀ d : Counter, d ≠ c → t.counter d = s.counter d))

/-- R38, R83, R161, R164, R175: a write of a selector and a read of a first view word take a fresh copy; a read of a later
word returns the copy as it stands (log 24). A read that has been taken stands at its first
bit, a write at DONE (log 12). -/
def Obligations.ViewSelectorsAndReads : Prop :=
  ∀ (value : Word) (word : Fin 4) (s : State), s.hpu.resetnLow = false →
    let view := fun i : Slot => (⟨(s.mu.slots[i]).map fun e => (e.scan, e.expected, e.present),
                                  s.mu.current == some i⟩ : SlotView)
    exec (.memberSelWrite value) s = .next { s with
      ru := { s.ru with selector := selectedNode value }
      hpu := { s.hpu with transaction := .done, memberCopy := s.member (selectedNode value) } }
    ∧ (selectedNode value).val = value.toNat % 32
    ∧ exec (.mergeSelWrite value) s = .next { s with
      mu := { s.mu with selector := selectedSlot value }
      hpu := { s.hpu with transaction := .done, mergeCopy := view (selectedSlot value) } }
    ∧ (selectedSlot value).val = value.toNat % 8
    ∧ exec (.memberViewRead word) s = .next (
        let copy := if word = 0 then s.member s.ru.selector else s.hpu.memberCopy
        { s with hpu := { s.hpu with
            transaction := .read 0, memberCopy := copy, readWord := memberViewWord s.ownId s.ru.selector copy word } })
    ∧ exec (.mergeViewRead word) s = .next (
        let copy := if word = 0 then view s.mu.selector else s.hpu.mergeCopy
        { s with hpu := { s.hpu with
            transaction := .read 0, mergeCopy := copy, readWord := mergeViewWord s.mu.selector copy word } })

/-- R155, R162, R165, R172, R175: a write of a word of the window acts on the word's own field; one of the read class, or
to no word, is ignored. A word whose write is a command of its own acts as that command (log 21). The COMMAND words 1 to 9
are the nine commands, a SOFT_RESET reading CFGSRC at the level it has (log 27); any other is answered INVALID with
UNKNOWN_COMMAND and acts on no block. -/
def Obligations.RegisterWriteByAddress : Prop :=
  (∀ (address : BitVec 7) (value : Word) (s : State), s.hpu.resetnLow = false →
      (address = 0x06 → exec (.registerWrite address value) s = .next { s with
        hpu := { s.hpu with transaction := .done }, cs := { s.cs with selector := BitVec.ofNat 5 (value.toNat % 32) } })
      ∧ (address = 0x0C → exec (.registerWrite address value) s = .next { s with
        hpu := { s.hpu with transaction := .done, statSel := BitVec.ofNat 5 (value.toNat % 32) } })
      ∧ (address = 0x0D → exec (.registerWrite address value) s = .next { s with
        hpu := { s.hpu with transaction := .done, statMode := if value.toNat % 2 = 1 then .decrement else .direct } })
      ∧ (hasOwnWriteRow address = false → address ≠ 0x06 → address ≠ 0x0C → address ≠ 0x0D →
        exec (.registerWrite address value) s = .next { s with hpu := { s.hpu with transaction := .done } })
      ∧ (address = 0x02 → exec (.registerWrite address value) s = exec (.eventsWrite value) s)
      ∧ (address = 0x03 → exec (.registerWrite address value) s = exec (.eventMaskWrite value) s)
      ∧ (address = 0x04 → exec (.registerWrite address value) s = exec (.unknownCommand value) s)
      ∧ (address = 0x07 → exec (.registerWrite address value) s = exec (.paramValueWrite value) s)
      ∧ (address = 0x08 → exec (.registerWrite address value) s = exec (.recordPointerWrite value) s)
      ∧ (address = 0x0A → exec (.registerWrite address value) s = exec (.projDescWrite value) s)
      ∧ (address = 0x0E → exec (.registerWrite address value) s = exec (.statValueWrite value) s)
      ∧ (address = 0x0F → exec (.registerWrite address value) s = exec (.memberSelWrite value) s)
      ∧ (address = 0x14 → exec (.registerWrite address value) s = exec (.mergeSelWrite value) s))
  ∧ (∀ s : State,
      exec (.unknownCommand 1) s = exec .join s ∧ exec (.unknownCommand 2) s = exec .leave s
      ∧ exec (.unknownCommand 3) s = exec .calibrate s ∧ exec (.unknownCommand 4) s = exec .releaseRecord s
      ∧ exec (.unknownCommand 5) s = exec .flushRecords s ∧ exec (.unknownCommand 6) s = exec .suspendRecords s
      ∧ exec (.unknownCommand 7) s = exec .resumeRecords s ∧ exec (.unknownCommand 8) s = exec .commitConfig s
      ∧ exec (.unknownCommand 9) s = exec (.softReset s.cs.cfgsrc) s)
  ∧ (∀ (code : Word) (s : State), s.hpu.resetnLow = false → (code = 0 ∨ 9 < code.toNat) →
      exec (.unknownCommand code) s = .next { s with hpu := { s.hpu with
        transaction := .done, lastCode := code, result := s.resultAfter ⟨.invalid, .unknownCommand, .unknown⟩ } })

/-- R161, R162, R167: the transaction bit by bit, its pin changes waiting in the queue of log 32. HSELn falling in IDLE begins
it; the first 8 bits on HSDI are the command byte, whose top bit set takes the read of its word address at the 8th rising edge of
HSCK; a write is taken at the 40th, with the 32 data bits most significant bit first; HSELn rising ends it in whatever
state, and a write so cut short leaves nothing. While RESETn is low the port ignores HSELn and HSCK and notes the level of
HSELn alone. HSDO shifts out the word read, from the falling edge after the 8th rising edge, is low in every other phase of
a transaction but the data phase of a write, whose level is free, and is at high impedance outside one; the falling edge
after the 32nd bit of a read is where it goes to DONE (log 31). What PARAM_SEL holds as a transaction begins is kept with it
until its word is taken (log 35). -/
def Obligations.PortTransactionByPins : Prop :=
  (∀ (s : State) (e : PinEvent) (rest : List PinEvent), s.pending = [] → s.pins = e :: rest →
    let p := s.withPins rest
    let goes := fun x : Transaction => step s = .next (p.withHpu { p.hpu with transaction := x })
    let x := s.hpu.transaction
    (∀ high, e = .cfgsrc high → step s = .next (p.withCs { p.cs with cfgsrc := high }))
    ∧ (s.hpu.resetnLow = true →
        (e = .hselnFall → goes (.idle true)) ∧ (e = .hselnRise → goes (.idle false))
        ∧ (∀ hsdi, e = .hsckRise hsdi → step s = .next p) ∧ (e = .hsckFall → step s = .next p))
    ∧ (s.hpu.resetnLow = false →
        (e = .hselnFall → x = .idle false → goes (.address s.cs.selector []))
        ∧ (e = .hselnFall → x ≠ .idle false → step s = .next p)
        ∧ (e = .hselnRise → goes (.idle false))
        ∧ (∀ hsdi sel bits, e = .hsckRise hsdi → x = .address sel bits → bits.length < 7 →
            goes (.address sel (bits ++ [hsdi])))
        ∧ (∀ hsdi sel bits (address : BitVec 7), e = .hsckRise hsdi → x = .address sel bits → bits.length = 7 →
            (∀ i : Fin 7, address.getMsbD i.val = (bits ++ [hsdi]).getD (i.val + 1) false) →
            ((bits ++ [hsdi]).head? = some false → goes (.write sel address []))
            ∧ ((bits ++ [hsdi]).head? = some true →
                (address = 0x09 → step s = exec .recordDataRead p)
                ∧ (∀ word : Fin 4, address.toNat = 0x10 + word.val → step s = exec (.memberViewRead word) p)
                ∧ (∀ word : Fin 4, address.toNat = 0x15 + word.val → step s = exec (.mergeViewRead word) p)
                ∧ (address ≠ 0x09 → ¬(0x10 ≤ address.toNat ∧ address.toNat ≤ 0x13) →
                    ¬(0x15 ≤ address.toNat ∧ address.toNat ≤ 0x18) →
                    step s = .next (p.withHpu { p.hpu with
                      transaction := .read 0, readWord := p.readRegister address }))))
        ∧ (∀ hsdi sel address bits, e = .hsckRise hsdi → x = .write sel address bits → bits.length < 31 →
            goes (.write sel address (bits ++ [hsdi])))
        ∧ (∀ hsdi sel address bits (value : Word), e = .hsckRise hsdi → x = .write sel address bits → bits.length = 31 →
            (∀ i : Fin 32, value.getMsbD i.val = (bits ++ [hsdi]).getD i.val false) →
            step s = exec (.registerWrite address value) p)
        ∧ (∀ hsdi, e = .hsckRise hsdi → (x = .done ∨ (∃ low, x = .idle low) ∨ ∃ n, x = .read n) → step s = .next p)
        ∧ (∀ n, e = .hsckFall → x = .read n → n < 32 → goes (.read (n + 1)))
        ∧ (e = .hsckFall → x = .read 32 → goes .done)
        ∧ (e = .hsckFall → (∀ n, x ≠ .read n) → step s = .next p)))
  ∧ (∀ s : State,
      (s.hpu.resetnLow = true ∨ (∃ low, s.hpu.transaction = .idle low) → s.hsdo = .highZ)
      ∧ (s.hpu.resetnLow = false →
          (∀ sel bits, s.hpu.transaction = .address sel bits → s.hsdo = .driven false)
          ∧ (s.hpu.transaction = .done ∨ s.hpu.transaction = .read 0 → s.hsdo = .driven false)
          ∧ (∀ n, n < 32 → s.hpu.transaction = .read (n + 1) → s.hsdo = .driven (s.hpu.readWord.getLsbD (31 - n)))))

/-- R163, R155, R162, R166, R168, R172, R175: what a read of a word of the window returns: IDENT, the STATE word with its
fields, CMD_RESULT with the error code of chapter 11, PARAM_VALUE by its selector, the words that read back as they were
written, and 0 at an address that names no word. -/
def Obligations.RegisterWindowReads : Prop :=
  ∀ s : State,
    let readAt := fun n : Nat => s.readRegister (BitVec.ofNat 7 n)
    let bit := fun b : Bool => if b then 1 else 0
    let errorCode := fun e : ErrorCode => match e with
      | .none => 0 | .noImage => 1 | .badHeader => 2 | .badLength => 3 | .badChecksum => 4
      | .unknownParam number => 5 + 256 * number.toNat
      | .range p => 6 + 256 * p.number | .cross p => 7 + 256 * p.number | .unknownCommand => 8
    readAt 0x00 = 0x04320001
    ∧ (s.rcu.queue.length ≤ 32 → (readAt 0x01).toNat =
        (match s.acu.state with
          | .loading => 0 | .awaitingConfig => 1 | .configured => 2 | .listening => 3 | .joining => 4 | .member => 5
          | .leaving => 6)
        + 8 * (match s.acu.reason with | .none => 0 | .digest => 1 | .idConflict => 2)
        + 32 * (match s.stu.gate with | .detached => 0 | .observing => 1 | .holding => 2 | .released _ => 3)
        + 128 * bit s.stu.stallFlag
        + 256 * (match s.spc.phase with
          | .idle => 0 | .zeroSettle => 1 | .zeroAccum => 2 | .refSettle => 3 | .refAccum => 4 | .evaluate => 5)
        + 2048 * (match s.spc.result with | .none => 0 | .pass => 1 | .fail _ _ => 2 | .aborted => 3)
        + 8192 * (match s.spc.result with | .fail .fault _ => 1 | .fail .offset _ => 2 | .fail .gain _ => 3 | _ => 0)
        + 32768 * (match s.spc.result with | .fail _ c => c.val | _ => 0)
        + 131072 * s.rcu.queue.length + 8388608 * bit s.rcu.queue.isEmpty
        + 16777216 * bit s.hc.backlogReason + 33554432 * bit s.hc.freezeReason + 67108864 * bit (s.hc.lastSent != 0))
    ∧ (readAt 0x02).toNat = s.hpu.events.toNat + 32768 * bit s.statHalf
    ∧ readAt 0x04 = s.hpu.lastCode
    ∧ (readAt 0x05).toNat =
        (match s.hpu.result.code with | .accepted => 0 | .wrongState => 1 | .empty => 2 | .invalid => 3 | .pending => 4)
        + 256 * (match s.hpu.result.item with
          | .nothing => 0 | .paramWrite => 0xFE | .unknown => 0xFF
          | .command c => match c with
            | .join => 1 | .leave => 2 | .calibrate => 3 | .releaseRecord => 4 | .flushRecords => 5
            | .suspendRecords => 6 | .resumeRecords => 7 | .commitConfig => 8 | .softReset => 9)
        + 65536 * (if s.hpu.result.code = .invalid then errorCode s.hpu.result.error else 0)
    ∧ (readAt 0x06).toNat = s.cs.selector.toNat
    ∧ (s.cs.selector = 0 → (readAt 0x07).toNat = errorCode s.cs.error)
    ∧ (∀ p : Param, s.cs.selector.toNat = p.number →
        readAt 0x07 = if s.cs.load = .empty then s.cs.written.value p else s.cs.committed.value p)
    ∧ (s.cs.selector = 24 → (readAt 0x07).toNat = s.cs.digest.toNat)
    ∧ (25 ≤ s.cs.selector.toNat → readAt 0x07 = 0)
    ∧ (readAt 0x08).toNat = s.rcu.pointer.toNat
    ∧ (readAt 0x0A).toNat = s.rcu.projFirst.toNat + 256 * s.rcu.projCount.toNat
    ∧ readAt 0x0B = s.projectionMask
    ∧ (readAt 0x0C).toNat = s.hpu.statSel.toNat
    ∧ readAt 0x0D = (match s.hpu.statMode with | .direct => 0 | .decrement => 1)
    ∧ (∀ c : Counter, s.hpu.statSel.toNat = c.index.val → readAt 0x0E = s.counter c)
    ∧ (28 ≤ s.hpu.statSel.toNat → readAt 0x0E = 0)
    ∧ (readAt 0x0F).toNat = s.ru.selector.val
    ∧ (readAt 0x14).toNat = s.mu.selector.val
    ∧ (∀ i : Fin 32, readAt (0x20 + i.val) = s.projectionWord i.val)
    ∧ (∀ n, (0x19 ≤ n ∧ n < 0x20) ∨ (0x40 ≤ n ∧ n < 0x80) → readAt n = 0)

/-- R79, R89, R90, R175, R176: the words of a record, and of the member and the merge view, by the tables of chapter 11. -/
def Obligations.RecordAndViewWords : Prop :=
  (∀ r : Record, r.contributions.length ≤ 32 → (∀ c ∈ r.contributions, c.samples.length ≤ 4) →
    let bit := fun b : Bool => if b then 1 else 0
    let word := fun i : Nat => r.words.getD i 0
    let size := fun ids : NodeSet => ((List.finRange 32).filter fun k => ids.getLsbD k.val).length
    let missing := r.expected &&& ~~~r.present
    let length := 6 + (r.contributions.map fun c => 1 + c.samples.length).sum
    r.words.length = length
    ∧ (word 0).toNat = r.scan.toNat
        + 16777216 * (match r.kind with | .complete => 0 | .partialClose => 1 | .realigned => 2 | .flushed => 3)
        + 67108864 * size r.present
    ∧ word 1 = r.expected ∧ word 2 = r.present ∧ word 4 = r.openTime ∧ word 5 = r.closeTime
    ∧ (missing = 0 → (word 3).toNat = 0xFF + 16777216 * length)
    ∧ (∀ k : NodeId, missing.getLsbD k.val = true → (∀ i : NodeId, i < k → missing.getLsbD i.val = false) →
        (word 3).toNat = k.val + 256 * size missing + 16777216 * length)
    ∧ (∀ before c after, r.contributions = before ++ c :: after →
        let p := 6 + (before.map fun d => 1 + d.samples.length).sum
        (word p).toNat = c.node.val + 256 * bit c.cal + 512 * bit c.fault + 1024 * bit c.ovr + 65536 * c.samples.length
        ∧ ∀ q x, c.samples[q]? = some x → word (p + 1 + q) = BitVec.ofInt 32 x)
    ∧ (∀ i, length ≤ i → word i = 0))
  ∧ (∀ (own selected : NodeId) (m : Member),
    let scan := fun x : Option Scan => match x with | none => 0xFFFFFFFF | some n => n.toNat
    (memberViewWord own selected m 0).toNat =
        (match m.membership with | .absent => 0 | .pending _ => 1 | .active _ => 2 | .departing _ _ => 3)
        + (if selected = own then 4 else 0) + 8 * selected.val + 256 * m.missCount.toNat + 65536 * m.hold.toNat
    ∧ (memberViewWord own selected m 1).toNat = scan (match m.membership with
        | .absent => none | .pending f => some f | .active f => some f | .departing f _ => some f)
    ∧ (memberViewWord own selected m 2).toNat = scan (match m.membership with | .departing _ u => some u | _ => none)
    ∧ (memberViewWord own selected m 3).toNat = scan m.lastHeard)
  ∧ (∀ (selected : Slot) (current : Bool),
    let bit := fun b : Bool => if b then 1 else 0
    ((mergeViewWord selected ⟨none, current⟩ 0).toNat = 2 * bit current + 4 * selected.val
      ∧ mergeViewWord selected ⟨none, current⟩ 1 = 0xFFFFFFFF
      ∧ mergeViewWord selected ⟨none, current⟩ 2 = 0 ∧ mergeViewWord selected ⟨none, current⟩ 3 = 0)
    ∧ (∀ n expected present,
      (mergeViewWord selected ⟨some (n, expected, present), current⟩ 0).toNat = 1 + 2 * bit current + 4 * selected.val
      ∧ (mergeViewWord selected ⟨some (n, expected, present), current⟩ 1).toNat = n.toNat
      ∧ mergeViewWord selected ⟨some (n, expected, present), current⟩ 2 = expected
      ∧ mergeViewWord selected ⟨some (n, expected, present), current⟩ 3 = present))

/-! ### What every command keeps -/

/-- R31: an ABSENT entry has hold remaining 0 and miss count 0, and every step keeps that. -/
def Obligations.AbsentEntriesHoldNothing : Prop :=
  ∀ s t : State, s.HoldLaw → step s = .next t → t.HoldLaw

/-- R114, R116, R120, R121, R127: every step keeps the laws of the bus controller. -/
def Obligations.BusLawKept : Prop :=
  ∀ s t : State, s.BusLaw → step s = .next t → t.BusLaw

/-- R102 to R106: every step keeps the laws of the hold controller. -/
def Obligations.HoldControlLawKept : Prop :=
  ∀ s t : State, s.HoldControlLaw → step s = .next t → t.HoldControlLaw

/-- R2, R10, R21, R62 to R64, R119, R132, R133, R150, R155 to R158: every step keeps the laws of membership: of the
configuration, the self entry, the gate driver, the merge table, the sample port, the inbound buffer and the image read. The
laws of the bus controller, which every step keeps by themselves (BusLawKept), are a premise: with the line OFF no frame is
received. -/
def Obligations.ArrayLawKept : Prop :=
  ∀ s t : State, s.BusLaw → s.ArrayLaw → step s = .next t → t.ArrayLaw

/-- The state after reset has every law. -/
def Obligations.LawsHoldAtReset : Prop :=
  State.reset.HoldLaw ∧ State.reset.BusLaw ∧ State.reset.HoldControlLaw ∧ State.reset.ArrayLaw
  ∧ State.reset.IsReset false

/-- R62, R64, R78, R81: at most CLOSE_LAG + 1 entries are OPEN, no two with the same scan, and each expects the own id; the table
is empty when no slot is OPEN; and the order oldest first, in which entries that close together close: it takes in each OPEN
entry concerned once, and each is behind those that come after it. -/
def Obligations.OpenEntriesBounded : Prop :=
  ∀ s : State, s.ArrayLaw →
    (s.mu.slots.toList.filter (·.isSome)).length ≤ s.param .closeLag + 1
    ∧ (∀ i j : Slot, ∀ e ∈ s.mu.slots[i], ∀ f ∈ s.mu.slots[j], e.scan = f.scan → i = j)
    ∧ (∀ i : Slot, ∀ e ∈ s.mu.slots[i], inSet e.expected s.ownId = true)
    ∧ (s.mu.tableEmpty = true ↔ ∀ i : Slot, s.mu.slots[i] = none)
    ∧ (∀ p : Slot → Entry → Bool,
        (s.mu.oldestFirst p).Nodup
        ∧ (∀ i, i ∈ s.mu.oldestFirst p ↔ ∃ e, s.mu.slots[i] = some e ∧ p i e = true)
        ∧ (s.mu.oldestFirst p).Pairwise (fun i j => ∀ e ∈ s.mu.slots[i], ∀ f ∈ s.mu.slots[j], behind f.scan e.scan = true))
    ∧ s.mu.entriesOldestFirst.Nodup
    ∧ (∀ e, e ∈ s.mu.entriesOldestFirst ↔ ∃ i : Slot, s.mu.slots[i] = some e)
    ∧ s.mu.entriesOldestFirst.Pairwise (fun e f => behind f.scan e.scan = true)
    ∧ s.mu.othersOldestFirst.Nodup
    ∧ (∀ e, e ∈ s.mu.othersOldestFirst ↔ ∃ i : Slot, s.mu.slots[i] = some e ∧ s.mu.current ≠ some i)
    ∧ s.mu.othersOldestFirst.Pairwise (fun e f => behind f.scan e.scan = true)

/-- R18, R166, with logs 20, 29 and 32: no command faults or is refused; none touches what waits in the two queues, or, but
for one that resets the part, the time counter; and none changes CMD_RESULT while a soft reset stays pending. (That a reset
too leaves what waits is log 29; the queues are logs 20 and 32.) -/
def Obligations.EveryCommandAnswersNext : Prop :=
  ∀ (c : Instr) (s : State), ∃ t, exec c s = .next t
    ∧ t.pending = s.pending ∧ t.pins = s.pins
    ∧ (t.stu.time = s.stu.time ∨ (canReset c = true ∧ t.stu = Stu.afterReset s.stu.gateHigh))
    ∧ (s.bac.resetPending = true → t.bac.resetPending = true → t.hpu.result = s.hpu.result)

/-- R7, R12: GATE is let go only with the scan period expired, self-hold inactive, and the own contribution formed where
the node is eligible for the scan; and the current index changes by one step at a boundary, by a counted realign of 1 to
2^23, or by being set: to 0 at a founding or a reset, or from the admission roster on entering JOINING from LISTENING. -/
def Obligations.ReleaseAndIndexLaws : Prop :=
  ∀ (c : Instr) (s t : State), exec c s = .next t →
    (s.stu.gate = .holding → t.stu.gate = .released .wait →
      t.stu.period = .expired ∧ t.hc.selfHold = false ∧ (t.selfEligible = true → t.stu.formed = true))
    ∧ (t.stu.index = s.stu.index
      ∨ ((∃ order, c = .boundary order) ∧ t.stu.index = s.stu.index + 1
          ∧ t.counter .boundaries = s.counter .boundaries + 1)
      ∨ ((c = .rosterTaken ∨ c = .scanFrameTaken) ∧ 1 ≤ Scan.forward s.stu.index t.stu.index
          ∧ Scan.forward s.stu.index t.stu.index ≤ 8388608 ∧ t.counter .realigns = s.counter .realigns + 1
          ∧ t.eventSet .realigned = true)
      ∨ ((∃ order, c = .boundary order) ∧ s.acu.state = .listening ∧ t.acu.state = .joining
          ∧ s.acu.admission.map (fun r => r.currentScan + 1) = some t.stu.index)
      ∨ (c = .listenTimerExpiry false ∧ s.acu.state = .listening ∧ t.acu.state = .member ∧ t.stu.index = 0)
      ∨ (canReset c = true ∧ t.stu = Stu.afterReset s.stu.gateHigh))

/-- R85, R86, R91, R92, R142, R156, R158: a record in the queue never changes, and leaves it only by RELEASE_RECORD, the head
alone, by FLUSH_RECORDS or by a reset; the correction table changes only at a PASS, when the capture of count 40 completes,
or at a reset; the committed set and its digest only by COMMIT_CONFIG in AWAITING_CONFIG, at the end of the image read in
LOADING, or at a reset. -/
def Obligations.QueueTableAndSetKept : Prop :=
  ∀ (c : Instr) (s t : State), exec c s = .next t →
    (s.rcu.queue <+: t.rcu.queue
      ∨ (hostCommandOf c = some .releaseRecord ∧ t.rcu.queue = s.rcu.queue.drop 1)
      ∨ (hostCommandOf c = some .flushRecords ∧ t.rcu.queue = [])
      ∨ (canReset c = true ∧ t.rcu = Rcu.afterReset))
    ∧ (t.spc.table = s.spc.table
      ∨ ((∃ raw, c = .captureComplete raw) ∧ s.calibrating = true ∧ tagCount s.spc.tag = some 40 ∧ t.spc.result = .pass)
      ∨ (canReset c = true ∧ t.spc = Spc.afterReset s.spc.sdata))
    ∧ ((t.cs.committed = s.cs.committed ∧ t.cs.digest = s.cs.digest)
      ∨ (hostCommandOf c = some .commitConfig ∧ s.acu.state = .awaitingConfig ∧ t.cs.committed = s.cs.written)
      ∨ ((∃ edi, c = .imageReadEnd edi) ∧ s.acu.state = .loading)
      ∨ (canReset c = true ∧ t.cs.committed = paramDefaults ∧ t.cs.digest = digestOf paramDefaults))
end

