-- ==== Sys2Proof/Laws/ArrayBus.lean ====
section
/-! SUPPORT. The bits of a frame on DATA. -/
namespace Sys2Proof.Machine

/-- A frame has the number of bytes its length field says (R115). -/
theorem encode_length (f : Frame) : f.encode.length = f.length := by
  have entry : ∀ e : RosterEntry, e.bytes.length = 5 := fun e => rfl
  cases f <;>
    simp [Frame.encode, Frame.body, Frame.length, bytes16, bytes24, entry] <;> omega

/-- Bit `8 × i + j` of a byte string is bit `7 − j` of its byte `i`. -/
theorem bitSent_eq (bytes : List Byte) (i j : Nat) (h : j < 8) :
    bitSent bytes (8 * i + j) = (byteAt bytes i).getLsbD (7 - j) := by
  have hi : (8 * i + j) / 8 = i := by omega
  have hj : (8 * i + j) % 8 = j := by omega
  simp [bitSent, hi, hj, BitVec.getMsbD, h]

/-- What a frame puts on DATA in each bit time of an attempt (R114, R174). -/
theorem inBitTime_cases (f : Frame) :
    (∀ n, n < 16 → f.inBitTime n = .delimiter)
    ∧ (∀ i j, i < f.encode.length → j < 8 →
        f.inBitTime (16 + 8 * i + j) = .bit ((byteAt f.encode i).getLsbD (7 - j)))
    ∧ (∀ n, 16 + 8 * f.encode.length ≤ n → f.inBitTime n = .released) := by
  simp only [encode_length]
  refine ⟨fun n h => by simp [Frame.inBitTime, h], fun i j hi hj => ?_, fun n h => ?_⟩
  · have h16 : ¬(16 + 8 * i + j < 16) := by omega
    have hlt : 16 + 8 * i + j < f.bitTimes := by simp only [Frame.bitTimes]; omega
    have hsub : 16 + 8 * i + j - 16 = 8 * i + j := by omega
    simp only [Frame.inBitTime, h16, hlt, if_false, if_true, hsub, bitSent_eq _ _ _ hj]
  · have h16 : ¬(n < 16) := by omega
    have hge : ¬(n < f.bitTimes) := by simp only [Frame.bitTimes]; omega
    simp only [Frame.inBitTime, h16, hge, if_false]

/-- In SENDING the frame in transmission is what stands on DATA (R125). -/
@[simp] theorem dataOut_sending (s : State) (x : InTx) (n : Nat) (h : s.bac.transmitter = .sending)
    (hx : s.bac.inTx = some x) : s.dataOut n = x.frame.inBitTime n := by
  simp [State.dataOut, h, hx]

end Sys2Proof.Machine
end

