-- ==== Sys2Proof/Laws/State.lean ====
section
/-! SUPPORT. What each update of State leaves and what it sets: one lemma for each field and each update. -/
namespace Sys2Proof.Machine

@[simp] theorem State.withStu_stu (s : State) (x : Stu) : (s.withStu x).stu = x := rfl
@[simp] theorem State.withStu_ru (s : State) (x : Stu) : (s.withStu x).ru = s.ru := rfl
@[simp] theorem State.withStu_mu (s : State) (x : Stu) : (s.withStu x).mu = s.mu := rfl
@[simp] theorem State.withStu_rcu (s : State) (x : Stu) : (s.withStu x).rcu = s.rcu := rfl
@[simp] theorem State.withStu_hc (s : State) (x : Stu) : (s.withStu x).hc = s.hc := rfl
@[simp] theorem State.withStu_bac (s : State) (x : Stu) : (s.withStu x).bac = s.bac := rfl
@[simp] theorem State.withStu_spc (s : State) (x : Stu) : (s.withStu x).spc = s.spc := rfl
@[simp] theorem State.withStu_cs (s : State) (x : Stu) : (s.withStu x).cs = s.cs := rfl
@[simp] theorem State.withStu_hpu (s : State) (x : Stu) : (s.withStu x).hpu = s.hpu := rfl
@[simp] theorem State.withStu_acu (s : State) (x : Stu) : (s.withStu x).acu = s.acu := rfl
@[simp] theorem State.withStu_pending (s : State) (x : Stu) : (s.withStu x).pending = s.pending := rfl
@[simp] theorem State.withStu_pins (s : State) (x : Stu) : (s.withStu x).pins = s.pins := rfl

@[simp] theorem State.withRu_stu (s : State) (x : Ru) : (s.withRu x).stu = s.stu := rfl
@[simp] theorem State.withRu_ru (s : State) (x : Ru) : (s.withRu x).ru = x := rfl
@[simp] theorem State.withRu_mu (s : State) (x : Ru) : (s.withRu x).mu = s.mu := rfl
@[simp] theorem State.withRu_rcu (s : State) (x : Ru) : (s.withRu x).rcu = s.rcu := rfl
@[simp] theorem State.withRu_hc (s : State) (x : Ru) : (s.withRu x).hc = s.hc := rfl
@[simp] theorem State.withRu_bac (s : State) (x : Ru) : (s.withRu x).bac = s.bac := rfl
@[simp] theorem State.withRu_spc (s : State) (x : Ru) : (s.withRu x).spc = s.spc := rfl
@[simp] theorem State.withRu_cs (s : State) (x : Ru) : (s.withRu x).cs = s.cs := rfl
@[simp] theorem State.withRu_hpu (s : State) (x : Ru) : (s.withRu x).hpu = s.hpu := rfl
@[simp] theorem State.withRu_acu (s : State) (x : Ru) : (s.withRu x).acu = s.acu := rfl
@[simp] theorem State.withRu_pending (s : State) (x : Ru) : (s.withRu x).pending = s.pending := rfl
@[simp] theorem State.withRu_pins (s : State) (x : Ru) : (s.withRu x).pins = s.pins := rfl

@[simp] theorem State.withMu_stu (s : State) (x : Mu) : (s.withMu x).stu = s.stu := rfl
@[simp] theorem State.withMu_ru (s : State) (x : Mu) : (s.withMu x).ru = s.ru := rfl
@[simp] theorem State.withMu_mu (s : State) (x : Mu) : (s.withMu x).mu = x := rfl
@[simp] theorem State.withMu_rcu (s : State) (x : Mu) : (s.withMu x).rcu = s.rcu := rfl
@[simp] theorem State.withMu_hc (s : State) (x : Mu) : (s.withMu x).hc = s.hc := rfl
@[simp] theorem State.withMu_bac (s : State) (x : Mu) : (s.withMu x).bac = s.bac := rfl
@[simp] theorem State.withMu_spc (s : State) (x : Mu) : (s.withMu x).spc = s.spc := rfl
@[simp] theorem State.withMu_cs (s : State) (x : Mu) : (s.withMu x).cs = s.cs := rfl
@[simp] theorem State.withMu_hpu (s : State) (x : Mu) : (s.withMu x).hpu = s.hpu := rfl
@[simp] theorem State.withMu_acu (s : State) (x : Mu) : (s.withMu x).acu = s.acu := rfl
@[simp] theorem State.withMu_pending (s : State) (x : Mu) : (s.withMu x).pending = s.pending := rfl
@[simp] theorem State.withMu_pins (s : State) (x : Mu) : (s.withMu x).pins = s.pins := rfl

@[simp] theorem State.withRcu_stu (s : State) (x : Rcu) : (s.withRcu x).stu = s.stu := rfl
@[simp] theorem State.withRcu_ru (s : State) (x : Rcu) : (s.withRcu x).ru = s.ru := rfl
@[simp] theorem State.withRcu_mu (s : State) (x : Rcu) : (s.withRcu x).mu = s.mu := rfl
@[simp] theorem State.withRcu_rcu (s : State) (x : Rcu) : (s.withRcu x).rcu = x := rfl
@[simp] theorem State.withRcu_hc (s : State) (x : Rcu) : (s.withRcu x).hc = s.hc := rfl
@[simp] theorem State.withRcu_bac (s : State) (x : Rcu) : (s.withRcu x).bac = s.bac := rfl
@[simp] theorem State.withRcu_spc (s : State) (x : Rcu) : (s.withRcu x).spc = s.spc := rfl
@[simp] theorem State.withRcu_cs (s : State) (x : Rcu) : (s.withRcu x).cs = s.cs := rfl
@[simp] theorem State.withRcu_hpu (s : State) (x : Rcu) : (s.withRcu x).hpu = s.hpu := rfl
@[simp] theorem State.withRcu_acu (s : State) (x : Rcu) : (s.withRcu x).acu = s.acu := rfl
@[simp] theorem State.withRcu_pending (s : State) (x : Rcu) : (s.withRcu x).pending = s.pending := rfl
@[simp] theorem State.withRcu_pins (s : State) (x : Rcu) : (s.withRcu x).pins = s.pins := rfl

@[simp] theorem State.withHc_stu (s : State) (x : Hc) : (s.withHc x).stu = s.stu := rfl
@[simp] theorem State.withHc_ru (s : State) (x : Hc) : (s.withHc x).ru = s.ru := rfl
@[simp] theorem State.withHc_mu (s : State) (x : Hc) : (s.withHc x).mu = s.mu := rfl
@[simp] theorem State.withHc_rcu (s : State) (x : Hc) : (s.withHc x).rcu = s.rcu := rfl
@[simp] theorem State.withHc_hc (s : State) (x : Hc) : (s.withHc x).hc = x := rfl
@[simp] theorem State.withHc_bac (s : State) (x : Hc) : (s.withHc x).bac = s.bac := rfl
@[simp] theorem State.withHc_spc (s : State) (x : Hc) : (s.withHc x).spc = s.spc := rfl
@[simp] theorem State.withHc_cs (s : State) (x : Hc) : (s.withHc x).cs = s.cs := rfl
@[simp] theorem State.withHc_hpu (s : State) (x : Hc) : (s.withHc x).hpu = s.hpu := rfl
@[simp] theorem State.withHc_acu (s : State) (x : Hc) : (s.withHc x).acu = s.acu := rfl
@[simp] theorem State.withHc_pending (s : State) (x : Hc) : (s.withHc x).pending = s.pending := rfl
@[simp] theorem State.withHc_pins (s : State) (x : Hc) : (s.withHc x).pins = s.pins := rfl

@[simp] theorem State.withBac_stu (s : State) (x : Bac) : (s.withBac x).stu = s.stu := rfl
@[simp] theorem State.withBac_ru (s : State) (x : Bac) : (s.withBac x).ru = s.ru := rfl
@[simp] theorem State.withBac_mu (s : State) (x : Bac) : (s.withBac x).mu = s.mu := rfl
@[simp] theorem State.withBac_rcu (s : State) (x : Bac) : (s.withBac x).rcu = s.rcu := rfl
@[simp] theorem State.withBac_hc (s : State) (x : Bac) : (s.withBac x).hc = s.hc := rfl
@[simp] theorem State.withBac_bac (s : State) (x : Bac) : (s.withBac x).bac = x := rfl
@[simp] theorem State.withBac_spc (s : State) (x : Bac) : (s.withBac x).spc = s.spc := rfl
@[simp] theorem State.withBac_cs (s : State) (x : Bac) : (s.withBac x).cs = s.cs := rfl
@[simp] theorem State.withBac_hpu (s : State) (x : Bac) : (s.withBac x).hpu = s.hpu := rfl
@[simp] theorem State.withBac_acu (s : State) (x : Bac) : (s.withBac x).acu = s.acu := rfl
@[simp] theorem State.withBac_pending (s : State) (x : Bac) : (s.withBac x).pending = s.pending := rfl
@[simp] theorem State.withBac_pins (s : State) (x : Bac) : (s.withBac x).pins = s.pins := rfl

@[simp] theorem State.withSpc_stu (s : State) (x : Spc) : (s.withSpc x).stu = s.stu := rfl
@[simp] theorem State.withSpc_ru (s : State) (x : Spc) : (s.withSpc x).ru = s.ru := rfl
@[simp] theorem State.withSpc_mu (s : State) (x : Spc) : (s.withSpc x).mu = s.mu := rfl
@[simp] theorem State.withSpc_rcu (s : State) (x : Spc) : (s.withSpc x).rcu = s.rcu := rfl
@[simp] theorem State.withSpc_hc (s : State) (x : Spc) : (s.withSpc x).hc = s.hc := rfl
@[simp] theorem State.withSpc_bac (s : State) (x : Spc) : (s.withSpc x).bac = s.bac := rfl
@[simp] theorem State.withSpc_spc (s : State) (x : Spc) : (s.withSpc x).spc = x := rfl
@[simp] theorem State.withSpc_cs (s : State) (x : Spc) : (s.withSpc x).cs = s.cs := rfl
@[simp] theorem State.withSpc_hpu (s : State) (x : Spc) : (s.withSpc x).hpu = s.hpu := rfl
@[simp] theorem State.withSpc_acu (s : State) (x : Spc) : (s.withSpc x).acu = s.acu := rfl
@[simp] theorem State.withSpc_pending (s : State) (x : Spc) : (s.withSpc x).pending = s.pending := rfl
@[simp] theorem State.withSpc_pins (s : State) (x : Spc) : (s.withSpc x).pins = s.pins := rfl

@[simp] theorem State.withCs_stu (s : State) (x : Cs) : (s.withCs x).stu = s.stu := rfl
@[simp] theorem State.withCs_ru (s : State) (x : Cs) : (s.withCs x).ru = s.ru := rfl
@[simp] theorem State.withCs_mu (s : State) (x : Cs) : (s.withCs x).mu = s.mu := rfl
@[simp] theorem State.withCs_rcu (s : State) (x : Cs) : (s.withCs x).rcu = s.rcu := rfl
@[simp] theorem State.withCs_hc (s : State) (x : Cs) : (s.withCs x).hc = s.hc := rfl
@[simp] theorem State.withCs_bac (s : State) (x : Cs) : (s.withCs x).bac = s.bac := rfl
@[simp] theorem State.withCs_spc (s : State) (x : Cs) : (s.withCs x).spc = s.spc := rfl
@[simp] theorem State.withCs_cs (s : State) (x : Cs) : (s.withCs x).cs = x := rfl
@[simp] theorem State.withCs_hpu (s : State) (x : Cs) : (s.withCs x).hpu = s.hpu := rfl
@[simp] theorem State.withCs_acu (s : State) (x : Cs) : (s.withCs x).acu = s.acu := rfl
@[simp] theorem State.withCs_pending (s : State) (x : Cs) : (s.withCs x).pending = s.pending := rfl
@[simp] theorem State.withCs_pins (s : State) (x : Cs) : (s.withCs x).pins = s.pins := rfl

@[simp] theorem State.withHpu_stu (s : State) (x : Hpu) : (s.withHpu x).stu = s.stu := rfl
@[simp] theorem State.withHpu_ru (s : State) (x : Hpu) : (s.withHpu x).ru = s.ru := rfl
@[simp] theorem State.withHpu_mu (s : State) (x : Hpu) : (s.withHpu x).mu = s.mu := rfl
@[simp] theorem State.withHpu_rcu (s : State) (x : Hpu) : (s.withHpu x).rcu = s.rcu := rfl
@[simp] theorem State.withHpu_hc (s : State) (x : Hpu) : (s.withHpu x).hc = s.hc := rfl
@[simp] theorem State.withHpu_bac (s : State) (x : Hpu) : (s.withHpu x).bac = s.bac := rfl
@[simp] theorem State.withHpu_spc (s : State) (x : Hpu) : (s.withHpu x).spc = s.spc := rfl
@[simp] theorem State.withHpu_cs (s : State) (x : Hpu) : (s.withHpu x).cs = s.cs := rfl
@[simp] theorem State.withHpu_hpu (s : State) (x : Hpu) : (s.withHpu x).hpu = x := rfl
@[simp] theorem State.withHpu_acu (s : State) (x : Hpu) : (s.withHpu x).acu = s.acu := rfl
@[simp] theorem State.withHpu_pending (s : State) (x : Hpu) : (s.withHpu x).pending = s.pending := rfl
@[simp] theorem State.withHpu_pins (s : State) (x : Hpu) : (s.withHpu x).pins = s.pins := rfl

@[simp] theorem State.withAcu_stu (s : State) (x : Acu) : (s.withAcu x).stu = s.stu := rfl
@[simp] theorem State.withAcu_ru (s : State) (x : Acu) : (s.withAcu x).ru = s.ru := rfl
@[simp] theorem State.withAcu_mu (s : State) (x : Acu) : (s.withAcu x).mu = s.mu := rfl
@[simp] theorem State.withAcu_rcu (s : State) (x : Acu) : (s.withAcu x).rcu = s.rcu := rfl
@[simp] theorem State.withAcu_hc (s : State) (x : Acu) : (s.withAcu x).hc = s.hc := rfl
@[simp] theorem State.withAcu_bac (s : State) (x : Acu) : (s.withAcu x).bac = s.bac := rfl
@[simp] theorem State.withAcu_spc (s : State) (x : Acu) : (s.withAcu x).spc = s.spc := rfl
@[simp] theorem State.withAcu_cs (s : State) (x : Acu) : (s.withAcu x).cs = s.cs := rfl
@[simp] theorem State.withAcu_hpu (s : State) (x : Acu) : (s.withAcu x).hpu = s.hpu := rfl
@[simp] theorem State.withAcu_acu (s : State) (x : Acu) : (s.withAcu x).acu = x := rfl
@[simp] theorem State.withAcu_pending (s : State) (x : Acu) : (s.withAcu x).pending = s.pending := rfl
@[simp] theorem State.withAcu_pins (s : State) (x : Acu) : (s.withAcu x).pins = s.pins := rfl

@[simp] theorem State.withPending_stu (s : State) (x : List Instr) : (s.withPending x).stu = s.stu := rfl
@[simp] theorem State.withPending_ru (s : State) (x : List Instr) : (s.withPending x).ru = s.ru := rfl
@[simp] theorem State.withPending_mu (s : State) (x : List Instr) : (s.withPending x).mu = s.mu := rfl
@[simp] theorem State.withPending_rcu (s : State) (x : List Instr) : (s.withPending x).rcu = s.rcu := rfl
@[simp] theorem State.withPending_hc (s : State) (x : List Instr) : (s.withPending x).hc = s.hc := rfl
@[simp] theorem State.withPending_bac (s : State) (x : List Instr) : (s.withPending x).bac = s.bac := rfl
@[simp] theorem State.withPending_spc (s : State) (x : List Instr) : (s.withPending x).spc = s.spc := rfl
@[simp] theorem State.withPending_cs (s : State) (x : List Instr) : (s.withPending x).cs = s.cs := rfl
@[simp] theorem State.withPending_hpu (s : State) (x : List Instr) : (s.withPending x).hpu = s.hpu := rfl
@[simp] theorem State.withPending_acu (s : State) (x : List Instr) : (s.withPending x).acu = s.acu := rfl
@[simp] theorem State.withPending_pending (s : State) (x : List Instr) : (s.withPending x).pending = x := rfl
@[simp] theorem State.withPending_pins (s : State) (x : List Instr) : (s.withPending x).pins = s.pins := rfl

@[simp] theorem State.withPins_stu (s : State) (x : List PinEvent) : (s.withPins x).stu = s.stu := rfl
@[simp] theorem State.withPins_ru (s : State) (x : List PinEvent) : (s.withPins x).ru = s.ru := rfl
@[simp] theorem State.withPins_mu (s : State) (x : List PinEvent) : (s.withPins x).mu = s.mu := rfl
@[simp] theorem State.withPins_rcu (s : State) (x : List PinEvent) : (s.withPins x).rcu = s.rcu := rfl
@[simp] theorem State.withPins_hc (s : State) (x : List PinEvent) : (s.withPins x).hc = s.hc := rfl
@[simp] theorem State.withPins_bac (s : State) (x : List PinEvent) : (s.withPins x).bac = s.bac := rfl
@[simp] theorem State.withPins_spc (s : State) (x : List PinEvent) : (s.withPins x).spc = s.spc := rfl
@[simp] theorem State.withPins_cs (s : State) (x : List PinEvent) : (s.withPins x).cs = s.cs := rfl
@[simp] theorem State.withPins_hpu (s : State) (x : List PinEvent) : (s.withPins x).hpu = s.hpu := rfl
@[simp] theorem State.withPins_acu (s : State) (x : List PinEvent) : (s.withPins x).acu = s.acu := rfl
@[simp] theorem State.withPins_pending (s : State) (x : List PinEvent) : (s.withPins x).pending = s.pending := rfl
@[simp] theorem State.withPins_pins (s : State) (x : List PinEvent) : (s.withPins x).pins = x := rfl

end Sys2Proof.Machine
end

