-- ==== Sys2Proof/Laws/Frames.lean ====
section
/-! SUPPORT. What each shared operation leaves as it was: one lemma for each operation of Flags and Ops, citing which
a proof need not unfold the operation to know what it does not touch. -/
namespace Sys2Proof.Machine

/-- What each step of a fold keeps, the fold keeps. -/
theorem foldl_keep {α β : Type} (g : State → α) (f : State → β → State) (h : ∀ t b, g (f t b) = g t) (l : List β) :
    ∀ s, g (l.foldl f s) = g s := by
  induction l with
  | nil => intro s; rfl
  | cons b l ih => intro s; rw [List.foldl_cons, ih, h]

@[simp] theorem raiseEvent_frame (e : Event) (s : State) :
    (raiseEvent e s).stu = s.stu ∧ (raiseEvent e s).ru = s.ru ∧ (raiseEvent e s).mu = s.mu
    ∧ (raiseEvent e s).rcu = s.rcu ∧ (raiseEvent e s).hc = s.hc ∧ (raiseEvent e s).bac = s.bac
    ∧ (raiseEvent e s).spc = s.spc ∧ (raiseEvent e s).cs = s.cs ∧ (raiseEvent e s).hpu.transaction = s.hpu.transaction
    ∧ (raiseEvent e s).hpu.mask = s.hpu.mask ∧ (raiseEvent e s).hpu.result = s.hpu.result
    ∧ (raiseEvent e s).hpu.lastCode = s.hpu.lastCode ∧ (raiseEvent e s).hpu.counters = s.hpu.counters
    ∧ (raiseEvent e s).hpu.statSel = s.hpu.statSel ∧ (raiseEvent e s).hpu.statMode = s.hpu.statMode
    ∧ (raiseEvent e s).hpu.memberCopy = s.hpu.memberCopy ∧ (raiseEvent e s).hpu.mergeCopy = s.hpu.mergeCopy
    ∧ (raiseEvent e s).hpu.readWord = s.hpu.readWord ∧ (raiseEvent e s).hpu.resetnLow = s.hpu.resetnLow
    ∧ (raiseEvent e s).acu = s.acu ∧ (raiseEvent e s).pending = s.pending
    ∧ (raiseEvent e s).pins = s.pins := by
  simp [raiseEvent]

@[simp] theorem countOne_frame (c : Counter) (s : State) :
    (countOne c s).stu = s.stu ∧ (countOne c s).ru = s.ru ∧ (countOne c s).mu = s.mu ∧ (countOne c s).rcu = s.rcu
    ∧ (countOne c s).hc = s.hc ∧ (countOne c s).bac = s.bac ∧ (countOne c s).spc = s.spc ∧ (countOne c s).cs = s.cs
    ∧ (countOne c s).hpu.transaction = s.hpu.transaction ∧ (countOne c s).hpu.events = s.hpu.events
    ∧ (countOne c s).hpu.mask = s.hpu.mask ∧ (countOne c s).hpu.result = s.hpu.result
    ∧ (countOne c s).hpu.lastCode = s.hpu.lastCode ∧ (countOne c s).hpu.statSel = s.hpu.statSel
    ∧ (countOne c s).hpu.statMode = s.hpu.statMode ∧ (countOne c s).hpu.memberCopy = s.hpu.memberCopy
    ∧ (countOne c s).hpu.mergeCopy = s.hpu.mergeCopy ∧ (countOne c s).hpu.readWord = s.hpu.readWord
    ∧ (countOne c s).hpu.resetnLow = s.hpu.resetnLow ∧ (countOne c s).acu = s.acu ∧ (countOne c s).pending = s.pending
    ∧ (countOne c s).pins = s.pins := by
  simp [countOne]

@[simp] theorem clearEvents_frame (value : Word) (s : State) :
    (clearEvents value s).stu = s.stu ∧ (clearEvents value s).ru = s.ru ∧ (clearEvents value s).mu = s.mu
    ∧ (clearEvents value s).rcu = s.rcu ∧ (clearEvents value s).hc = s.hc ∧ (clearEvents value s).bac = s.bac
    ∧ (clearEvents value s).spc = s.spc ∧ (clearEvents value s).cs = s.cs
    ∧ (clearEvents value s).hpu.transaction = s.hpu.transaction ∧ (clearEvents value s).hpu.mask = s.hpu.mask
    ∧ (clearEvents value s).hpu.result = s.hpu.result ∧ (clearEvents value s).hpu.lastCode = s.hpu.lastCode
    ∧ (clearEvents value s).hpu.counters = s.hpu.counters ∧ (clearEvents value s).hpu.statSel = s.hpu.statSel
    ∧ (clearEvents value s).hpu.statMode = s.hpu.statMode ∧ (clearEvents value s).hpu.memberCopy = s.hpu.memberCopy
    ∧ (clearEvents value s).hpu.mergeCopy = s.hpu.mergeCopy ∧ (clearEvents value s).hpu.readWord = s.hpu.readWord
    ∧ (clearEvents value s).hpu.resetnLow = s.hpu.resetnLow ∧ (clearEvents value s).acu = s.acu
    ∧ (clearEvents value s).pending = s.pending
    ∧ (clearEvents value s).pins = s.pins := by
  simp [clearEvents]

@[simp] theorem setEventMask_frame (value : Word) (s : State) :
    (setEventMask value s).stu = s.stu ∧ (setEventMask value s).ru = s.ru ∧ (setEventMask value s).mu = s.mu
    ∧ (setEventMask value s).rcu = s.rcu ∧ (setEventMask value s).hc = s.hc ∧ (setEventMask value s).bac = s.bac
    ∧ (setEventMask value s).spc = s.spc ∧ (setEventMask value s).cs = s.cs
    ∧ (setEventMask value s).hpu.transaction = s.hpu.transaction ∧ (setEventMask value s).hpu.events = s.hpu.events
    ∧ (setEventMask value s).hpu.result = s.hpu.result ∧ (setEventMask value s).hpu.lastCode = s.hpu.lastCode
    ∧ (setEventMask value s).hpu.counters = s.hpu.counters ∧ (setEventMask value s).hpu.statSel = s.hpu.statSel
    ∧ (setEventMask value s).hpu.statMode = s.hpu.statMode ∧ (setEventMask value s).hpu.memberCopy = s.hpu.memberCopy
    ∧ (setEventMask value s).hpu.mergeCopy = s.hpu.mergeCopy ∧ (setEventMask value s).hpu.readWord = s.hpu.readWord
    ∧ (setEventMask value s).hpu.resetnLow = s.hpu.resetnLow ∧ (setEventMask value s).acu = s.acu
    ∧ (setEventMask value s).pending = s.pending
    ∧ (setEventMask value s).pins = s.pins := by
  simp [setEventMask]

@[simp] theorem writeStatValue_frame (value : Word) (s : State) :
    (writeStatValue value s).stu = s.stu ∧ (writeStatValue value s).ru = s.ru ∧ (writeStatValue value s).mu = s.mu
    ∧ (writeStatValue value s).rcu = s.rcu ∧ (writeStatValue value s).hc = s.hc ∧ (writeStatValue value s).bac = s.bac
    ∧ (writeStatValue value s).spc = s.spc ∧ (writeStatValue value s).cs = s.cs
    ∧ (writeStatValue value s).hpu.transaction = s.hpu.transaction
    ∧ (writeStatValue value s).hpu.events = s.hpu.events ∧ (writeStatValue value s).hpu.mask = s.hpu.mask
    ∧ (writeStatValue value s).hpu.result = s.hpu.result ∧ (writeStatValue value s).hpu.lastCode = s.hpu.lastCode
    ∧ (writeStatValue value s).hpu.statSel = s.hpu.statSel ∧ (writeStatValue value s).hpu.statMode = s.hpu.statMode
    ∧ (writeStatValue value s).hpu.memberCopy = s.hpu.memberCopy
    ∧ (writeStatValue value s).hpu.mergeCopy = s.hpu.mergeCopy
    ∧ (writeStatValue value s).hpu.readWord = s.hpu.readWord
    ∧ (writeStatValue value s).hpu.resetnLow = s.hpu.resetnLow ∧ (writeStatValue value s).acu = s.acu
    ∧ (writeStatValue value s).pending = s.pending
    ∧ (writeStatValue value s).pins = s.pins := by
  simp only [writeStatValue]
  (repeat' split) <;> simp

@[simp] theorem releaseGate_frame (s : State) :
    (releaseGate s).stu.gateHigh = s.stu.gateHigh ∧ (releaseGate s).stu.faultSeen = s.stu.faultSeen
    ∧ (releaseGate s).stu.guard = s.stu.guard ∧ (releaseGate s).stu.take = s.stu.take
    ∧ (releaseGate s).stu.index = s.stu.index ∧ (releaseGate s).stu.period = s.stu.period
    ∧ (releaseGate s).stu.formed = s.stu.formed ∧ (releaseGate s).stu.stallFlag = s.stu.stallFlag
    ∧ (releaseGate s).stu.solo = s.stu.solo ∧ (releaseGate s).stu.soloMade = s.stu.soloMade
    ∧ (releaseGate s).stu.time = s.stu.time ∧ (releaseGate s).stu.boundaryTime = s.stu.boundaryTime
    ∧ (releaseGate s).stu.startSerial = s.stu.startSerial ∧ (releaseGate s).ru = s.ru ∧ (releaseGate s).mu = s.mu
    ∧ (releaseGate s).rcu = s.rcu ∧ (releaseGate s).hc = s.hc ∧ (releaseGate s).bac = s.bac
    ∧ (releaseGate s).spc = s.spc ∧ (releaseGate s).cs = s.cs ∧ (releaseGate s).hpu = s.hpu
    ∧ (releaseGate s).acu = s.acu ∧ (releaseGate s).pending = s.pending
    ∧ (releaseGate s).pins = s.pins := by
  simp [releaseGate]

@[simp] theorem testRelease_frame (s : State) :
    (testRelease s).stu.gateHigh = s.stu.gateHigh ∧ (testRelease s).stu.faultSeen = s.stu.faultSeen
    ∧ (testRelease s).stu.guard = s.stu.guard ∧ (testRelease s).stu.take = s.stu.take
    ∧ (testRelease s).stu.index = s.stu.index ∧ (testRelease s).stu.period = s.stu.period
    ∧ (testRelease s).stu.formed = s.stu.formed ∧ (testRelease s).stu.stallFlag = s.stu.stallFlag
    ∧ (testRelease s).stu.solo = s.stu.solo ∧ (testRelease s).stu.soloMade = s.stu.soloMade
    ∧ (testRelease s).stu.time = s.stu.time ∧ (testRelease s).stu.boundaryTime = s.stu.boundaryTime
    ∧ (testRelease s).stu.startSerial = s.stu.startSerial ∧ (testRelease s).ru = s.ru ∧ (testRelease s).mu = s.mu
    ∧ (testRelease s).rcu = s.rcu ∧ (testRelease s).hc = s.hc ∧ (testRelease s).bac = s.bac
    ∧ (testRelease s).spc = s.spc ∧ (testRelease s).cs = s.cs ∧ (testRelease s).hpu = s.hpu
    ∧ (testRelease s).acu = s.acu ∧ (testRelease s).pending = s.pending
    ∧ (testRelease s).pins = s.pins := by
  simp only [testRelease]
  (repeat' split) <;> simp

@[simp] theorem holdTakenSignal_frame (s : State) :
    (holdTakenSignal s).stu.gate = s.stu.gate ∧ (holdTakenSignal s).stu.gateHigh = s.stu.gateHigh
    ∧ (holdTakenSignal s).stu.faultSeen = s.stu.faultSeen ∧ (holdTakenSignal s).stu.guard = s.stu.guard
    ∧ (holdTakenSignal s).stu.take = s.stu.take ∧ (holdTakenSignal s).stu.index = s.stu.index
    ∧ (holdTakenSignal s).stu.period = s.stu.period ∧ (holdTakenSignal s).stu.formed = s.stu.formed
    ∧ (holdTakenSignal s).stu.stallFlag = s.stu.stallFlag ∧ (holdTakenSignal s).stu.solo = s.stu.solo
    ∧ (holdTakenSignal s).stu.soloMade = s.stu.soloMade ∧ (holdTakenSignal s).stu.time = s.stu.time
    ∧ (holdTakenSignal s).stu.boundaryTime = s.stu.boundaryTime
    ∧ (holdTakenSignal s).stu.startSerial = s.stu.startSerial ∧ (holdTakenSignal s).ru = s.ru
    ∧ (holdTakenSignal s).mu = s.mu ∧ (holdTakenSignal s).rcu = s.rcu ∧ (holdTakenSignal s).hc = s.hc
    ∧ (holdTakenSignal s).bac = s.bac ∧ (holdTakenSignal s).spc = s.spc ∧ (holdTakenSignal s).cs = s.cs
    ∧ (holdTakenSignal s).hpu = s.hpu ∧ (holdTakenSignal s).acu = s.acu ∧ (holdTakenSignal s).pending = s.pending
    ∧ (holdTakenSignal s).pins = s.pins := by
  simp only [holdTakenSignal]
  (repeat' split) <;> simp

@[simp] theorem holdClearedSignal_frame (s : State) :
    (holdClearedSignal s).stu.gate = s.stu.gate ∧ (holdClearedSignal s).stu.gateHigh = s.stu.gateHigh
    ∧ (holdClearedSignal s).stu.faultSeen = s.stu.faultSeen ∧ (holdClearedSignal s).stu.guard = s.stu.guard
    ∧ (holdClearedSignal s).stu.take = s.stu.take ∧ (holdClearedSignal s).stu.index = s.stu.index
    ∧ (holdClearedSignal s).stu.period = s.stu.period ∧ (holdClearedSignal s).stu.formed = s.stu.formed
    ∧ (holdClearedSignal s).stu.stallFlag = s.stu.stallFlag ∧ (holdClearedSignal s).stu.solo = s.stu.solo
    ∧ (holdClearedSignal s).stu.soloMade = s.stu.soloMade ∧ (holdClearedSignal s).stu.time = s.stu.time
    ∧ (holdClearedSignal s).stu.boundaryTime = s.stu.boundaryTime
    ∧ (holdClearedSignal s).stu.startSerial = s.stu.startSerial ∧ (holdClearedSignal s).ru = s.ru
    ∧ (holdClearedSignal s).mu = s.mu ∧ (holdClearedSignal s).rcu = s.rcu ∧ (holdClearedSignal s).hc = s.hc
    ∧ (holdClearedSignal s).bac = s.bac ∧ (holdClearedSignal s).spc = s.spc ∧ (holdClearedSignal s).cs = s.cs
    ∧ (holdClearedSignal s).hpu = s.hpu ∧ (holdClearedSignal s).acu = s.acu
    ∧ (holdClearedSignal s).pending = s.pending
    ∧ (holdClearedSignal s).pins = s.pins := by
  simp only [holdClearedSignal]
  (repeat' split) <;> simp

@[simp] theorem enterAccessWait_frame (s : State) :
    (enterAccessWait s).stu = s.stu ∧ (enterAccessWait s).ru = s.ru ∧ (enterAccessWait s).mu = s.mu
    ∧ (enterAccessWait s).rcu = s.rcu ∧ (enterAccessWait s).hc = s.hc ∧ (enterAccessWait s).bac.line = s.bac.line
    ∧ (enterAccessWait s).bac.receiver = s.bac.receiver ∧ (enterAccessWait s).bac.inbound = s.bac.inbound
    ∧ (enterAccessWait s).bac.holdItem = s.bac.holdItem ∧ (enterAccessWait s).bac.rosterItem = s.bac.rosterItem
    ∧ (enterAccessWait s).bac.scanItems = s.bac.scanItems ∧ (enterAccessWait s).bac.inTx = s.bac.inTx
    ∧ (enterAccessWait s).bac.backoff = s.bac.backoff ∧ (enterAccessWait s).bac.resetPending = s.bac.resetPending
    ∧ (enterAccessWait s).bac.idleTime = s.bac.idleTime ∧ (enterAccessWait s).spc = s.spc
    ∧ (enterAccessWait s).cs = s.cs ∧ (enterAccessWait s).hpu = s.hpu ∧ (enterAccessWait s).acu = s.acu
    ∧ (enterAccessWait s).pending = s.pending
    ∧ (enterAccessWait s).pins = s.pins := by
  simp only [enterAccessWait]
  (repeat' split) <;> simp

@[simp] theorem wakeTransmitter_frame (s : State) :
    (wakeTransmitter s).stu = s.stu ∧ (wakeTransmitter s).ru = s.ru ∧ (wakeTransmitter s).mu = s.mu
    ∧ (wakeTransmitter s).rcu = s.rcu ∧ (wakeTransmitter s).hc = s.hc ∧ (wakeTransmitter s).bac.line = s.bac.line
    ∧ (wakeTransmitter s).bac.receiver = s.bac.receiver ∧ (wakeTransmitter s).bac.inbound = s.bac.inbound
    ∧ (wakeTransmitter s).bac.holdItem = s.bac.holdItem ∧ (wakeTransmitter s).bac.rosterItem = s.bac.rosterItem
    ∧ (wakeTransmitter s).bac.scanItems = s.bac.scanItems ∧ (wakeTransmitter s).bac.inTx = s.bac.inTx
    ∧ (wakeTransmitter s).bac.backoff = s.bac.backoff ∧ (wakeTransmitter s).bac.resetPending = s.bac.resetPending
    ∧ (wakeTransmitter s).bac.idleTime = s.bac.idleTime ∧ (wakeTransmitter s).spc = s.spc
    ∧ (wakeTransmitter s).cs = s.cs ∧ (wakeTransmitter s).hpu = s.hpu ∧ (wakeTransmitter s).acu = s.acu
    ∧ (wakeTransmitter s).pending = s.pending
    ∧ (wakeTransmitter s).pins = s.pins := by
  simp only [wakeTransmitter]
  (repeat' split) <;> simp

@[simp] theorem nextAttempt_frame (s : State) :
    (nextAttempt s).stu = s.stu ∧ (nextAttempt s).ru = s.ru ∧ (nextAttempt s).mu = s.mu ∧ (nextAttempt s).rcu = s.rcu
    ∧ (nextAttempt s).hc = s.hc ∧ (nextAttempt s).bac.line = s.bac.line
    ∧ (nextAttempt s).bac.receiver = s.bac.receiver ∧ (nextAttempt s).bac.inbound = s.bac.inbound
    ∧ (nextAttempt s).bac.holdItem = s.bac.holdItem ∧ (nextAttempt s).bac.rosterItem = s.bac.rosterItem
    ∧ (nextAttempt s).bac.scanItems = s.bac.scanItems ∧ (nextAttempt s).bac.inTx = s.bac.inTx
    ∧ (nextAttempt s).bac.backoff = s.bac.backoff ∧ (nextAttempt s).bac.resetPending = s.bac.resetPending
    ∧ (nextAttempt s).bac.idleTime = s.bac.idleTime ∧ (nextAttempt s).spc = s.spc ∧ (nextAttempt s).cs = s.cs
    ∧ (nextAttempt s).hpu = s.hpu ∧ (nextAttempt s).acu = s.acu ∧ (nextAttempt s).pending = s.pending
    ∧ (nextAttempt s).pins = s.pins := by
  simp only [nextAttempt]
  (repeat' split) <;> simp

@[simp] theorem requestHold_frame (s : State) :
    (requestHold s).stu = s.stu ∧ (requestHold s).ru = s.ru ∧ (requestHold s).mu = s.mu ∧ (requestHold s).rcu = s.rcu
    ∧ (requestHold s).hc = s.hc ∧ (requestHold s).bac.line = s.bac.line
    ∧ (requestHold s).bac.receiver = s.bac.receiver ∧ (requestHold s).bac.inbound = s.bac.inbound
    ∧ (requestHold s).bac.rosterItem = s.bac.rosterItem ∧ (requestHold s).bac.scanItems = s.bac.scanItems
    ∧ (requestHold s).bac.inTx = s.bac.inTx ∧ (requestHold s).bac.backoff = s.bac.backoff
    ∧ (requestHold s).bac.resetPending = s.bac.resetPending ∧ (requestHold s).bac.idleTime = s.bac.idleTime
    ∧ (requestHold s).spc = s.spc ∧ (requestHold s).cs = s.cs ∧ (requestHold s).hpu = s.hpu
    ∧ (requestHold s).acu = s.acu ∧ (requestHold s).pending = s.pending
    ∧ (requestHold s).pins = s.pins := by
  simp only [requestHold]
  (repeat' split) <;> simp

@[simp] theorem requestRoster_frame (s : State) :
    (requestRoster s).stu = s.stu ∧ (requestRoster s).ru = s.ru ∧ (requestRoster s).mu = s.mu
    ∧ (requestRoster s).rcu = s.rcu ∧ (requestRoster s).hc = s.hc ∧ (requestRoster s).bac.line = s.bac.line
    ∧ (requestRoster s).bac.receiver = s.bac.receiver ∧ (requestRoster s).bac.inbound = s.bac.inbound
    ∧ (requestRoster s).bac.holdItem = s.bac.holdItem ∧ (requestRoster s).bac.scanItems = s.bac.scanItems
    ∧ (requestRoster s).bac.inTx = s.bac.inTx ∧ (requestRoster s).bac.backoff = s.bac.backoff
    ∧ (requestRoster s).bac.resetPending = s.bac.resetPending ∧ (requestRoster s).bac.idleTime = s.bac.idleTime
    ∧ (requestRoster s).spc = s.spc ∧ (requestRoster s).cs = s.cs ∧ (requestRoster s).hpu = s.hpu
    ∧ (requestRoster s).acu = s.acu ∧ (requestRoster s).pending = s.pending
    ∧ (requestRoster s).pins = s.pins := by
  simp only [requestRoster]
  (repeat' split) <;> simp

@[simp] theorem withdrawRoster_frame (s : State) :
    (withdrawRoster s).stu = s.stu ∧ (withdrawRoster s).ru = s.ru ∧ (withdrawRoster s).mu = s.mu
    ∧ (withdrawRoster s).rcu = s.rcu ∧ (withdrawRoster s).hc = s.hc ∧ (withdrawRoster s).bac.line = s.bac.line
    ∧ (withdrawRoster s).bac.receiver = s.bac.receiver ∧ (withdrawRoster s).bac.transmitter = s.bac.transmitter
    ∧ (withdrawRoster s).bac.inbound = s.bac.inbound ∧ (withdrawRoster s).bac.holdItem = s.bac.holdItem
    ∧ (withdrawRoster s).bac.scanItems = s.bac.scanItems ∧ (withdrawRoster s).bac.inTx = s.bac.inTx
    ∧ (withdrawRoster s).bac.busyMark = s.bac.busyMark ∧ (withdrawRoster s).bac.backoff = s.bac.backoff
    ∧ (withdrawRoster s).bac.resetPending = s.bac.resetPending ∧ (withdrawRoster s).bac.idleTime = s.bac.idleTime
    ∧ (withdrawRoster s).spc = s.spc ∧ (withdrawRoster s).cs = s.cs ∧ (withdrawRoster s).hpu = s.hpu
    ∧ (withdrawRoster s).acu = s.acu ∧ (withdrawRoster s).pending = s.pending
    ∧ (withdrawRoster s).pins = s.pins := by
  simp [withdrawRoster]

@[simp] theorem placeScan_frame (f : ScanFrame) (s : State) :
    (placeScan f s).stu = s.stu ∧ (placeScan f s).ru = s.ru ∧ (placeScan f s).mu = s.mu ∧ (placeScan f s).rcu = s.rcu
    ∧ (placeScan f s).hc = s.hc ∧ (placeScan f s).bac.line = s.bac.line
    ∧ (placeScan f s).bac.receiver = s.bac.receiver ∧ (placeScan f s).bac.inbound = s.bac.inbound
    ∧ (placeScan f s).bac.holdItem = s.bac.holdItem ∧ (placeScan f s).bac.rosterItem = s.bac.rosterItem
    ∧ (placeScan f s).bac.inTx = s.bac.inTx ∧ (placeScan f s).bac.backoff = s.bac.backoff
    ∧ (placeScan f s).bac.resetPending = s.bac.resetPending ∧ (placeScan f s).bac.idleTime = s.bac.idleTime
    ∧ (placeScan f s).spc = s.spc ∧ (placeScan f s).cs = s.cs ∧ (placeScan f s).hpu.transaction = s.hpu.transaction
    ∧ (placeScan f s).hpu.events = s.hpu.events ∧ (placeScan f s).hpu.mask = s.hpu.mask
    ∧ (placeScan f s).hpu.result = s.hpu.result ∧ (placeScan f s).hpu.lastCode = s.hpu.lastCode
    ∧ (placeScan f s).hpu.statSel = s.hpu.statSel ∧ (placeScan f s).hpu.statMode = s.hpu.statMode
    ∧ (placeScan f s).hpu.memberCopy = s.hpu.memberCopy ∧ (placeScan f s).hpu.mergeCopy = s.hpu.mergeCopy
    ∧ (placeScan f s).hpu.readWord = s.hpu.readWord ∧ (placeScan f s).hpu.resetnLow = s.hpu.resetnLow
    ∧ (placeScan f s).acu = s.acu ∧ (placeScan f s).pending = s.pending
    ∧ (placeScan f s).pins = s.pins := by
  simp only [placeScan]
  (repeat' split) <;> simp

@[simp] theorem returnScan_frame (item : ScanItem) (s : State) :
    (returnScan item s).stu = s.stu ∧ (returnScan item s).ru = s.ru ∧ (returnScan item s).mu = s.mu
    ∧ (returnScan item s).rcu = s.rcu ∧ (returnScan item s).hc = s.hc ∧ (returnScan item s).bac.line = s.bac.line
    ∧ (returnScan item s).bac.receiver = s.bac.receiver ∧ (returnScan item s).bac.transmitter = s.bac.transmitter
    ∧ (returnScan item s).bac.inbound = s.bac.inbound ∧ (returnScan item s).bac.holdItem = s.bac.holdItem
    ∧ (returnScan item s).bac.rosterItem = s.bac.rosterItem ∧ (returnScan item s).bac.inTx = s.bac.inTx
    ∧ (returnScan item s).bac.busyMark = s.bac.busyMark ∧ (returnScan item s).bac.backoff = s.bac.backoff
    ∧ (returnScan item s).bac.resetPending = s.bac.resetPending ∧ (returnScan item s).bac.idleTime = s.bac.idleTime
    ∧ (returnScan item s).spc = s.spc ∧ (returnScan item s).cs = s.cs
    ∧ (returnScan item s).hpu.transaction = s.hpu.transaction ∧ (returnScan item s).hpu.events = s.hpu.events
    ∧ (returnScan item s).hpu.mask = s.hpu.mask ∧ (returnScan item s).hpu.result = s.hpu.result
    ∧ (returnScan item s).hpu.lastCode = s.hpu.lastCode ∧ (returnScan item s).hpu.statSel = s.hpu.statSel
    ∧ (returnScan item s).hpu.statMode = s.hpu.statMode ∧ (returnScan item s).hpu.memberCopy = s.hpu.memberCopy
    ∧ (returnScan item s).hpu.mergeCopy = s.hpu.mergeCopy ∧ (returnScan item s).hpu.readWord = s.hpu.readWord
    ∧ (returnScan item s).hpu.resetnLow = s.hpu.resetnLow ∧ (returnScan item s).acu = s.acu
    ∧ (returnScan item s).pending = s.pending
    ∧ (returnScan item s).pins = s.pins := by
  simp only [returnScan]
  (repeat' split) <;> simp

@[simp] theorem selfHoldActive_frame (s : State) :
    (selfHoldActive s).stu = s.stu ∧ (selfHoldActive s).ru = s.ru ∧ (selfHoldActive s).mu = s.mu
    ∧ (selfHoldActive s).rcu = s.rcu ∧ (selfHoldActive s).hc.backlogReason = s.hc.backlogReason
    ∧ (selfHoldActive s).hc.freezeReason = s.hc.freezeReason ∧ (selfHoldActive s).hc.lastSent = s.hc.lastSent
    ∧ (selfHoldActive s).bac.line = s.bac.line ∧ (selfHoldActive s).bac.receiver = s.bac.receiver
    ∧ (selfHoldActive s).bac.inbound = s.bac.inbound ∧ (selfHoldActive s).bac.rosterItem = s.bac.rosterItem
    ∧ (selfHoldActive s).bac.scanItems = s.bac.scanItems ∧ (selfHoldActive s).bac.inTx = s.bac.inTx
    ∧ (selfHoldActive s).bac.backoff = s.bac.backoff ∧ (selfHoldActive s).bac.resetPending = s.bac.resetPending
    ∧ (selfHoldActive s).bac.idleTime = s.bac.idleTime ∧ (selfHoldActive s).spc = s.spc ∧ (selfHoldActive s).cs = s.cs
    ∧ (selfHoldActive s).hpu = s.hpu ∧ (selfHoldActive s).acu = s.acu ∧ (selfHoldActive s).pending = s.pending
    ∧ (selfHoldActive s).pins = s.pins := by
  simp [selfHoldActive]

@[simp] theorem selfHoldInactive_frame (s : State) :
    (selfHoldInactive s).stu.gateHigh = s.stu.gateHigh ∧ (selfHoldInactive s).stu.faultSeen = s.stu.faultSeen
    ∧ (selfHoldInactive s).stu.guard = s.stu.guard ∧ (selfHoldInactive s).stu.take = s.stu.take
    ∧ (selfHoldInactive s).stu.index = s.stu.index ∧ (selfHoldInactive s).stu.period = s.stu.period
    ∧ (selfHoldInactive s).stu.formed = s.stu.formed ∧ (selfHoldInactive s).stu.stallFlag = s.stu.stallFlag
    ∧ (selfHoldInactive s).stu.solo = s.stu.solo ∧ (selfHoldInactive s).stu.soloMade = s.stu.soloMade
    ∧ (selfHoldInactive s).stu.time = s.stu.time ∧ (selfHoldInactive s).stu.boundaryTime = s.stu.boundaryTime
    ∧ (selfHoldInactive s).stu.startSerial = s.stu.startSerial ∧ (selfHoldInactive s).ru = s.ru
    ∧ (selfHoldInactive s).mu = s.mu ∧ (selfHoldInactive s).rcu = s.rcu
    ∧ (selfHoldInactive s).hc.backlogReason = s.hc.backlogReason
    ∧ (selfHoldInactive s).hc.freezeReason = s.hc.freezeReason ∧ (selfHoldInactive s).hc.lastSent = s.hc.lastSent
    ∧ (selfHoldInactive s).bac.line = s.bac.line ∧ (selfHoldInactive s).bac.receiver = s.bac.receiver
    ∧ (selfHoldInactive s).bac.inbound = s.bac.inbound ∧ (selfHoldInactive s).bac.rosterItem = s.bac.rosterItem
    ∧ (selfHoldInactive s).bac.scanItems = s.bac.scanItems ∧ (selfHoldInactive s).bac.inTx = s.bac.inTx
    ∧ (selfHoldInactive s).bac.backoff = s.bac.backoff ∧ (selfHoldInactive s).bac.resetPending = s.bac.resetPending
    ∧ (selfHoldInactive s).bac.idleTime = s.bac.idleTime ∧ (selfHoldInactive s).spc = s.spc
    ∧ (selfHoldInactive s).cs = s.cs ∧ (selfHoldInactive s).hpu = s.hpu ∧ (selfHoldInactive s).acu = s.acu
    ∧ (selfHoldInactive s).pending = s.pending
    ∧ (selfHoldInactive s).pins = s.pins := by
  simp [selfHoldInactive]

@[simp] theorem testSelfHold_frame (s : State) :
    (testSelfHold s).stu.gateHigh = s.stu.gateHigh ∧ (testSelfHold s).stu.faultSeen = s.stu.faultSeen
    ∧ (testSelfHold s).stu.guard = s.stu.guard ∧ (testSelfHold s).stu.take = s.stu.take
    ∧ (testSelfHold s).stu.index = s.stu.index ∧ (testSelfHold s).stu.period = s.stu.period
    ∧ (testSelfHold s).stu.formed = s.stu.formed ∧ (testSelfHold s).stu.stallFlag = s.stu.stallFlag
    ∧ (testSelfHold s).stu.solo = s.stu.solo ∧ (testSelfHold s).stu.soloMade = s.stu.soloMade
    ∧ (testSelfHold s).stu.time = s.stu.time ∧ (testSelfHold s).stu.boundaryTime = s.stu.boundaryTime
    ∧ (testSelfHold s).stu.startSerial = s.stu.startSerial ∧ (testSelfHold s).ru = s.ru ∧ (testSelfHold s).mu = s.mu
    ∧ (testSelfHold s).rcu = s.rcu ∧ (testSelfHold s).hc.backlogReason = s.hc.backlogReason
    ∧ (testSelfHold s).hc.freezeReason = s.hc.freezeReason ∧ (testSelfHold s).hc.lastSent = s.hc.lastSent
    ∧ (testSelfHold s).bac.line = s.bac.line ∧ (testSelfHold s).bac.receiver = s.bac.receiver
    ∧ (testSelfHold s).bac.inbound = s.bac.inbound ∧ (testSelfHold s).bac.rosterItem = s.bac.rosterItem
    ∧ (testSelfHold s).bac.scanItems = s.bac.scanItems ∧ (testSelfHold s).bac.inTx = s.bac.inTx
    ∧ (testSelfHold s).bac.backoff = s.bac.backoff ∧ (testSelfHold s).bac.resetPending = s.bac.resetPending
    ∧ (testSelfHold s).bac.idleTime = s.bac.idleTime ∧ (testSelfHold s).spc = s.spc ∧ (testSelfHold s).cs = s.cs
    ∧ (testSelfHold s).hpu = s.hpu ∧ (testSelfHold s).acu = s.acu ∧ (testSelfHold s).pending = s.pending
    ∧ (testSelfHold s).pins = s.pins := by
  simp only [testSelfHold]
  (repeat' split) <;> simp

@[simp] theorem moveGate_frame (g : GateDriver) (s : State) :
    (moveGate g s).stu.gateHigh = s.stu.gateHigh ∧ (moveGate g s).stu.faultSeen = s.stu.faultSeen
    ∧ (moveGate g s).stu.guard = s.stu.guard ∧ (moveGate g s).stu.take = s.stu.take
    ∧ (moveGate g s).stu.index = s.stu.index ∧ (moveGate g s).stu.period = s.stu.period
    ∧ (moveGate g s).stu.formed = s.stu.formed ∧ (moveGate g s).stu.stallFlag = s.stu.stallFlag
    ∧ (moveGate g s).stu.solo = s.stu.solo ∧ (moveGate g s).stu.soloMade = s.stu.soloMade
    ∧ (moveGate g s).stu.time = s.stu.time ∧ (moveGate g s).stu.boundaryTime = s.stu.boundaryTime
    ∧ (moveGate g s).stu.startSerial = s.stu.startSerial ∧ (moveGate g s).ru = s.ru ∧ (moveGate g s).mu = s.mu
    ∧ (moveGate g s).rcu = s.rcu ∧ (moveGate g s).hc.backlogReason = s.hc.backlogReason
    ∧ (moveGate g s).hc.freezeReason = s.hc.freezeReason ∧ (moveGate g s).hc.lastSent = s.hc.lastSent
    ∧ (moveGate g s).bac.line = s.bac.line ∧ (moveGate g s).bac.receiver = s.bac.receiver
    ∧ (moveGate g s).bac.inbound = s.bac.inbound ∧ (moveGate g s).bac.rosterItem = s.bac.rosterItem
    ∧ (moveGate g s).bac.scanItems = s.bac.scanItems ∧ (moveGate g s).bac.inTx = s.bac.inTx
    ∧ (moveGate g s).bac.backoff = s.bac.backoff ∧ (moveGate g s).bac.resetPending = s.bac.resetPending
    ∧ (moveGate g s).bac.idleTime = s.bac.idleTime ∧ (moveGate g s).spc = s.spc ∧ (moveGate g s).cs = s.cs
    ∧ (moveGate g s).hpu = s.hpu ∧ (moveGate g s).acu = s.acu ∧ (moveGate g s).pending = s.pending
    ∧ (moveGate g s).pins = s.pins := by
  simp [moveGate]

@[simp] theorem takeGate_frame (s : State) :
    (takeGate s).stu.guard = s.stu.guard ∧ (takeGate s).stu.take = s.stu.take ∧ (takeGate s).stu.index = s.stu.index
    ∧ (takeGate s).stu.period = s.stu.period ∧ (takeGate s).stu.formed = s.stu.formed
    ∧ (takeGate s).stu.stallFlag = s.stu.stallFlag ∧ (takeGate s).stu.solo = s.stu.solo
    ∧ (takeGate s).stu.soloMade = s.stu.soloMade ∧ (takeGate s).stu.time = s.stu.time
    ∧ (takeGate s).stu.boundaryTime = s.stu.boundaryTime ∧ (takeGate s).stu.startSerial = s.stu.startSerial
    ∧ (takeGate s).ru = s.ru ∧ (takeGate s).mu = s.mu ∧ (takeGate s).rcu = s.rcu
    ∧ (takeGate s).hc.backlogReason = s.hc.backlogReason ∧ (takeGate s).hc.freezeReason = s.hc.freezeReason
    ∧ (takeGate s).hc.lastSent = s.hc.lastSent ∧ (takeGate s).bac.line = s.bac.line
    ∧ (takeGate s).bac.receiver = s.bac.receiver ∧ (takeGate s).bac.inbound = s.bac.inbound
    ∧ (takeGate s).bac.rosterItem = s.bac.rosterItem ∧ (takeGate s).bac.scanItems = s.bac.scanItems
    ∧ (takeGate s).bac.inTx = s.bac.inTx ∧ (takeGate s).bac.backoff = s.bac.backoff
    ∧ (takeGate s).bac.resetPending = s.bac.resetPending ∧ (takeGate s).bac.idleTime = s.bac.idleTime
    ∧ (takeGate s).spc = s.spc ∧ (takeGate s).cs = s.cs ∧ (takeGate s).hpu = s.hpu ∧ (takeGate s).acu = s.acu
    ∧ (takeGate s).pending = s.pending
    ∧ (takeGate s).pins = s.pins := by
  simp [takeGate]

@[simp] theorem detachGate_frame (s : State) :
    (detachGate s).stu.gateHigh = s.stu.gateHigh ∧ (detachGate s).stu.faultSeen = s.stu.faultSeen
    ∧ (detachGate s).stu.index = s.stu.index ∧ (detachGate s).stu.formed = s.stu.formed
    ∧ (detachGate s).stu.solo = s.stu.solo ∧ (detachGate s).stu.soloMade = s.stu.soloMade
    ∧ (detachGate s).stu.time = s.stu.time ∧ (detachGate s).stu.boundaryTime = s.stu.boundaryTime
    ∧ (detachGate s).stu.startSerial = s.stu.startSerial ∧ (detachGate s).ru = s.ru ∧ (detachGate s).mu = s.mu
    ∧ (detachGate s).rcu = s.rcu ∧ (detachGate s).hc.backlogReason = s.hc.backlogReason
    ∧ (detachGate s).hc.freezeReason = s.hc.freezeReason ∧ (detachGate s).hc.lastSent = s.hc.lastSent
    ∧ (detachGate s).bac.line = s.bac.line ∧ (detachGate s).bac.receiver = s.bac.receiver
    ∧ (detachGate s).bac.inbound = s.bac.inbound ∧ (detachGate s).bac.rosterItem = s.bac.rosterItem
    ∧ (detachGate s).bac.scanItems = s.bac.scanItems ∧ (detachGate s).bac.inTx = s.bac.inTx
    ∧ (detachGate s).bac.backoff = s.bac.backoff ∧ (detachGate s).bac.resetPending = s.bac.resetPending
    ∧ (detachGate s).bac.idleTime = s.bac.idleTime ∧ (detachGate s).spc = s.spc ∧ (detachGate s).cs = s.cs
    ∧ (detachGate s).hpu = s.hpu ∧ (detachGate s).acu = s.acu ∧ (detachGate s).pending = s.pending
    ∧ (detachGate s).pins = s.pins := by
  simp [detachGate]

@[simp] theorem backlogTold_frame (s : State) :
    (backlogTold s).stu.gateHigh = s.stu.gateHigh ∧ (backlogTold s).stu.faultSeen = s.stu.faultSeen
    ∧ (backlogTold s).stu.guard = s.stu.guard ∧ (backlogTold s).stu.take = s.stu.take
    ∧ (backlogTold s).stu.index = s.stu.index ∧ (backlogTold s).stu.period = s.stu.period
    ∧ (backlogTold s).stu.formed = s.stu.formed ∧ (backlogTold s).stu.stallFlag = s.stu.stallFlag
    ∧ (backlogTold s).stu.solo = s.stu.solo ∧ (backlogTold s).stu.soloMade = s.stu.soloMade
    ∧ (backlogTold s).stu.time = s.stu.time ∧ (backlogTold s).stu.boundaryTime = s.stu.boundaryTime
    ∧ (backlogTold s).stu.startSerial = s.stu.startSerial ∧ (backlogTold s).ru = s.ru ∧ (backlogTold s).mu = s.mu
    ∧ (backlogTold s).rcu = s.rcu ∧ (backlogTold s).hc.freezeReason = s.hc.freezeReason
    ∧ (backlogTold s).hc.lastSent = s.hc.lastSent ∧ (backlogTold s).bac.line = s.bac.line
    ∧ (backlogTold s).bac.receiver = s.bac.receiver ∧ (backlogTold s).bac.inbound = s.bac.inbound
    ∧ (backlogTold s).bac.rosterItem = s.bac.rosterItem ∧ (backlogTold s).bac.scanItems = s.bac.scanItems
    ∧ (backlogTold s).bac.inTx = s.bac.inTx ∧ (backlogTold s).bac.backoff = s.bac.backoff
    ∧ (backlogTold s).bac.resetPending = s.bac.resetPending ∧ (backlogTold s).bac.idleTime = s.bac.idleTime
    ∧ (backlogTold s).spc = s.spc ∧ (backlogTold s).cs = s.cs ∧ (backlogTold s).hpu = s.hpu
    ∧ (backlogTold s).acu = s.acu ∧ (backlogTold s).pending = s.pending
    ∧ (backlogTold s).pins = s.pins := by
  simp [backlogTold]

@[simp] theorem backlogAfterAppend_frame (s : State) :
    (backlogAfterAppend s).stu.gateHigh = s.stu.gateHigh ∧ (backlogAfterAppend s).stu.faultSeen = s.stu.faultSeen
    ∧ (backlogAfterAppend s).stu.guard = s.stu.guard ∧ (backlogAfterAppend s).stu.take = s.stu.take
    ∧ (backlogAfterAppend s).stu.index = s.stu.index ∧ (backlogAfterAppend s).stu.period = s.stu.period
    ∧ (backlogAfterAppend s).stu.formed = s.stu.formed ∧ (backlogAfterAppend s).stu.stallFlag = s.stu.stallFlag
    ∧ (backlogAfterAppend s).stu.solo = s.stu.solo ∧ (backlogAfterAppend s).stu.soloMade = s.stu.soloMade
    ∧ (backlogAfterAppend s).stu.time = s.stu.time ∧ (backlogAfterAppend s).stu.boundaryTime = s.stu.boundaryTime
    ∧ (backlogAfterAppend s).stu.startSerial = s.stu.startSerial ∧ (backlogAfterAppend s).ru = s.ru
    ∧ (backlogAfterAppend s).mu = s.mu ∧ (backlogAfterAppend s).rcu.queue = s.rcu.queue
    ∧ (backlogAfterAppend s).rcu.pointer = s.rcu.pointer ∧ (backlogAfterAppend s).rcu.projFirst = s.rcu.projFirst
    ∧ (backlogAfterAppend s).rcu.projCount = s.rcu.projCount
    ∧ (backlogAfterAppend s).hc.freezeReason = s.hc.freezeReason ∧ (backlogAfterAppend s).hc.lastSent = s.hc.lastSent
    ∧ (backlogAfterAppend s).bac.line = s.bac.line ∧ (backlogAfterAppend s).bac.receiver = s.bac.receiver
    ∧ (backlogAfterAppend s).bac.inbound = s.bac.inbound ∧ (backlogAfterAppend s).bac.rosterItem = s.bac.rosterItem
    ∧ (backlogAfterAppend s).bac.scanItems = s.bac.scanItems ∧ (backlogAfterAppend s).bac.inTx = s.bac.inTx
    ∧ (backlogAfterAppend s).bac.backoff = s.bac.backoff
    ∧ (backlogAfterAppend s).bac.resetPending = s.bac.resetPending
    ∧ (backlogAfterAppend s).bac.idleTime = s.bac.idleTime ∧ (backlogAfterAppend s).spc = s.spc
    ∧ (backlogAfterAppend s).cs = s.cs ∧ (backlogAfterAppend s).hpu.transaction = s.hpu.transaction
    ∧ (backlogAfterAppend s).hpu.mask = s.hpu.mask ∧ (backlogAfterAppend s).hpu.result = s.hpu.result
    ∧ (backlogAfterAppend s).hpu.lastCode = s.hpu.lastCode ∧ (backlogAfterAppend s).hpu.counters = s.hpu.counters
    ∧ (backlogAfterAppend s).hpu.statSel = s.hpu.statSel ∧ (backlogAfterAppend s).hpu.statMode = s.hpu.statMode
    ∧ (backlogAfterAppend s).hpu.memberCopy = s.hpu.memberCopy
    ∧ (backlogAfterAppend s).hpu.mergeCopy = s.hpu.mergeCopy ∧ (backlogAfterAppend s).hpu.readWord = s.hpu.readWord
    ∧ (backlogAfterAppend s).hpu.resetnLow = s.hpu.resetnLow ∧ (backlogAfterAppend s).acu = s.acu
    ∧ (backlogAfterAppend s).pending = s.pending
    ∧ (backlogAfterAppend s).pins = s.pins := by
  simp only [backlogAfterAppend]
  (repeat' split) <;> simp

@[simp] theorem backlogAfterRemoval_frame (s : State) :
    (backlogAfterRemoval s).stu.gateHigh = s.stu.gateHigh ∧ (backlogAfterRemoval s).stu.faultSeen = s.stu.faultSeen
    ∧ (backlogAfterRemoval s).stu.guard = s.stu.guard ∧ (backlogAfterRemoval s).stu.take = s.stu.take
    ∧ (backlogAfterRemoval s).stu.index = s.stu.index ∧ (backlogAfterRemoval s).stu.period = s.stu.period
    ∧ (backlogAfterRemoval s).stu.formed = s.stu.formed ∧ (backlogAfterRemoval s).stu.stallFlag = s.stu.stallFlag
    ∧ (backlogAfterRemoval s).stu.solo = s.stu.solo ∧ (backlogAfterRemoval s).stu.soloMade = s.stu.soloMade
    ∧ (backlogAfterRemoval s).stu.time = s.stu.time ∧ (backlogAfterRemoval s).stu.boundaryTime = s.stu.boundaryTime
    ∧ (backlogAfterRemoval s).stu.startSerial = s.stu.startSerial ∧ (backlogAfterRemoval s).ru = s.ru
    ∧ (backlogAfterRemoval s).mu = s.mu ∧ (backlogAfterRemoval s).rcu.queue = s.rcu.queue
    ∧ (backlogAfterRemoval s).rcu.pointer = s.rcu.pointer ∧ (backlogAfterRemoval s).rcu.projFirst = s.rcu.projFirst
    ∧ (backlogAfterRemoval s).rcu.projCount = s.rcu.projCount
    ∧ (backlogAfterRemoval s).hc.freezeReason = s.hc.freezeReason
    ∧ (backlogAfterRemoval s).hc.lastSent = s.hc.lastSent ∧ (backlogAfterRemoval s).bac.line = s.bac.line
    ∧ (backlogAfterRemoval s).bac.receiver = s.bac.receiver ∧ (backlogAfterRemoval s).bac.inbound = s.bac.inbound
    ∧ (backlogAfterRemoval s).bac.rosterItem = s.bac.rosterItem
    ∧ (backlogAfterRemoval s).bac.scanItems = s.bac.scanItems ∧ (backlogAfterRemoval s).bac.inTx = s.bac.inTx
    ∧ (backlogAfterRemoval s).bac.backoff = s.bac.backoff
    ∧ (backlogAfterRemoval s).bac.resetPending = s.bac.resetPending
    ∧ (backlogAfterRemoval s).bac.idleTime = s.bac.idleTime ∧ (backlogAfterRemoval s).spc = s.spc
    ∧ (backlogAfterRemoval s).cs = s.cs ∧ (backlogAfterRemoval s).hpu.transaction = s.hpu.transaction
    ∧ (backlogAfterRemoval s).hpu.mask = s.hpu.mask ∧ (backlogAfterRemoval s).hpu.result = s.hpu.result
    ∧ (backlogAfterRemoval s).hpu.lastCode = s.hpu.lastCode ∧ (backlogAfterRemoval s).hpu.counters = s.hpu.counters
    ∧ (backlogAfterRemoval s).hpu.statSel = s.hpu.statSel ∧ (backlogAfterRemoval s).hpu.statMode = s.hpu.statMode
    ∧ (backlogAfterRemoval s).hpu.memberCopy = s.hpu.memberCopy
    ∧ (backlogAfterRemoval s).hpu.mergeCopy = s.hpu.mergeCopy ∧ (backlogAfterRemoval s).hpu.readWord = s.hpu.readWord
    ∧ (backlogAfterRemoval s).hpu.resetnLow = s.hpu.resetnLow ∧ (backlogAfterRemoval s).acu = s.acu
    ∧ (backlogAfterRemoval s).pending = s.pending
    ∧ (backlogAfterRemoval s).pins = s.pins := by
  simp only [backlogAfterRemoval]
  (repeat' split) <;> simp

@[simp] theorem appendRecord_frame (r : Record) (s : State) :
    (appendRecord r s).stu.gateHigh = s.stu.gateHigh ∧ (appendRecord r s).stu.faultSeen = s.stu.faultSeen
    ∧ (appendRecord r s).stu.guard = s.stu.guard ∧ (appendRecord r s).stu.take = s.stu.take
    ∧ (appendRecord r s).stu.index = s.stu.index ∧ (appendRecord r s).stu.period = s.stu.period
    ∧ (appendRecord r s).stu.formed = s.stu.formed ∧ (appendRecord r s).stu.stallFlag = s.stu.stallFlag
    ∧ (appendRecord r s).stu.solo = s.stu.solo ∧ (appendRecord r s).stu.soloMade = s.stu.soloMade
    ∧ (appendRecord r s).stu.time = s.stu.time ∧ (appendRecord r s).stu.boundaryTime = s.stu.boundaryTime
    ∧ (appendRecord r s).stu.startSerial = s.stu.startSerial ∧ (appendRecord r s).ru = s.ru
    ∧ (appendRecord r s).mu = s.mu ∧ (appendRecord r s).rcu.projFirst = s.rcu.projFirst
    ∧ (appendRecord r s).rcu.projCount = s.rcu.projCount ∧ (appendRecord r s).hc.freezeReason = s.hc.freezeReason
    ∧ (appendRecord r s).hc.lastSent = s.hc.lastSent ∧ (appendRecord r s).bac.line = s.bac.line
    ∧ (appendRecord r s).bac.receiver = s.bac.receiver ∧ (appendRecord r s).bac.inbound = s.bac.inbound
    ∧ (appendRecord r s).bac.rosterItem = s.bac.rosterItem ∧ (appendRecord r s).bac.scanItems = s.bac.scanItems
    ∧ (appendRecord r s).bac.inTx = s.bac.inTx ∧ (appendRecord r s).bac.backoff = s.bac.backoff
    ∧ (appendRecord r s).bac.resetPending = s.bac.resetPending ∧ (appendRecord r s).bac.idleTime = s.bac.idleTime
    ∧ (appendRecord r s).spc = s.spc ∧ (appendRecord r s).cs = s.cs
    ∧ (appendRecord r s).hpu.transaction = s.hpu.transaction ∧ (appendRecord r s).hpu.mask = s.hpu.mask
    ∧ (appendRecord r s).hpu.result = s.hpu.result ∧ (appendRecord r s).hpu.lastCode = s.hpu.lastCode
    ∧ (appendRecord r s).hpu.counters = s.hpu.counters ∧ (appendRecord r s).hpu.statSel = s.hpu.statSel
    ∧ (appendRecord r s).hpu.statMode = s.hpu.statMode ∧ (appendRecord r s).hpu.memberCopy = s.hpu.memberCopy
    ∧ (appendRecord r s).hpu.mergeCopy = s.hpu.mergeCopy ∧ (appendRecord r s).hpu.readWord = s.hpu.readWord
    ∧ (appendRecord r s).hpu.resetnLow = s.hpu.resetnLow ∧ (appendRecord r s).acu = s.acu
    ∧ (appendRecord r s).pending = s.pending
    ∧ (appendRecord r s).pins = s.pins := by
  simp only [appendRecord]
  (repeat' split) <;> simp

@[simp] theorem setSelf_frame (m : Membership) (s : State) :
    (setSelf m s).stu.gateHigh = s.stu.gateHigh ∧ (setSelf m s).stu.faultSeen = s.stu.faultSeen
    ∧ (setSelf m s).stu.guard = s.stu.guard ∧ (setSelf m s).stu.take = s.stu.take
    ∧ (setSelf m s).stu.index = s.stu.index ∧ (setSelf m s).stu.period = s.stu.period
    ∧ (setSelf m s).stu.formed = s.stu.formed ∧ (setSelf m s).stu.stallFlag = s.stu.stallFlag
    ∧ (setSelf m s).stu.solo = s.stu.solo ∧ (setSelf m s).stu.soloMade = s.stu.soloMade
    ∧ (setSelf m s).stu.time = s.stu.time ∧ (setSelf m s).stu.boundaryTime = s.stu.boundaryTime
    ∧ (setSelf m s).stu.startSerial = s.stu.startSerial ∧ (setSelf m s).ru.selector = s.ru.selector
    ∧ (setSelf m s).ru.reports = s.ru.reports ∧ (setSelf m s).mu = s.mu ∧ (setSelf m s).rcu = s.rcu
    ∧ (setSelf m s).hc = s.hc ∧ (setSelf m s).bac = s.bac ∧ (setSelf m s).spc = s.spc ∧ (setSelf m s).cs = s.cs
    ∧ (setSelf m s).hpu = s.hpu ∧ (setSelf m s).acu = s.acu ∧ (setSelf m s).pending = s.pending
    ∧ (setSelf m s).pins = s.pins := by
  simp only [setSelf]
  (repeat' split) <;> simp

@[simp] theorem restInConfigured_frame (s : State) :
    (restInConfigured s).stu.gateHigh = s.stu.gateHigh ∧ (restInConfigured s).stu.faultSeen = s.stu.faultSeen
    ∧ (restInConfigured s).stu.index = s.stu.index ∧ (restInConfigured s).stu.formed = s.stu.formed
    ∧ (restInConfigured s).stu.solo = s.stu.solo ∧ (restInConfigured s).stu.soloMade = s.stu.soloMade
    ∧ (restInConfigured s).stu.time = s.stu.time ∧ (restInConfigured s).stu.boundaryTime = s.stu.boundaryTime
    ∧ (restInConfigured s).stu.startSerial = s.stu.startSerial ∧ (restInConfigured s).ru.selector = s.ru.selector
    ∧ (restInConfigured s).ru.reports = s.ru.reports ∧ (restInConfigured s).mu = s.mu
    ∧ (restInConfigured s).rcu = s.rcu ∧ (restInConfigured s).hc.backlogReason = s.hc.backlogReason
    ∧ (restInConfigured s).hc.freezeReason = s.hc.freezeReason ∧ (restInConfigured s).hc.lastSent = s.hc.lastSent
    ∧ (restInConfigured s).bac.line = s.bac.line ∧ (restInConfigured s).bac.receiver = s.bac.receiver
    ∧ (restInConfigured s).bac.inbound = s.bac.inbound ∧ (restInConfigured s).bac.scanItems = s.bac.scanItems
    ∧ (restInConfigured s).bac.inTx = s.bac.inTx ∧ (restInConfigured s).bac.backoff = s.bac.backoff
    ∧ (restInConfigured s).bac.resetPending = s.bac.resetPending ∧ (restInConfigured s).bac.idleTime = s.bac.idleTime
    ∧ (restInConfigured s).spc = s.spc ∧ (restInConfigured s).cs = s.cs ∧ (restInConfigured s).hpu = s.hpu
    ∧ (restInConfigured s).acu.reason = s.acu.reason ∧ (restInConfigured s).pending = s.pending
    ∧ (restInConfigured s).pins = s.pins := by
  simp [restInConfigured]

@[simp] theorem testDrain_frame (s : State) :
    (testDrain s).stu.gateHigh = s.stu.gateHigh ∧ (testDrain s).stu.faultSeen = s.stu.faultSeen
    ∧ (testDrain s).stu.index = s.stu.index ∧ (testDrain s).stu.formed = s.stu.formed
    ∧ (testDrain s).stu.solo = s.stu.solo ∧ (testDrain s).stu.soloMade = s.stu.soloMade
    ∧ (testDrain s).stu.time = s.stu.time ∧ (testDrain s).stu.boundaryTime = s.stu.boundaryTime
    ∧ (testDrain s).stu.startSerial = s.stu.startSerial ∧ (testDrain s).ru.selector = s.ru.selector
    ∧ (testDrain s).ru.reports = s.ru.reports ∧ (testDrain s).mu = s.mu ∧ (testDrain s).rcu = s.rcu
    ∧ (testDrain s).hc.backlogReason = s.hc.backlogReason ∧ (testDrain s).hc.freezeReason = s.hc.freezeReason
    ∧ (testDrain s).hc.lastSent = s.hc.lastSent ∧ (testDrain s).bac.line = s.bac.line
    ∧ (testDrain s).bac.receiver = s.bac.receiver ∧ (testDrain s).bac.inbound = s.bac.inbound
    ∧ (testDrain s).bac.scanItems = s.bac.scanItems ∧ (testDrain s).bac.inTx = s.bac.inTx
    ∧ (testDrain s).bac.backoff = s.bac.backoff ∧ (testDrain s).bac.resetPending = s.bac.resetPending
    ∧ (testDrain s).bac.idleTime = s.bac.idleTime ∧ (testDrain s).spc = s.spc ∧ (testDrain s).cs = s.cs
    ∧ (testDrain s).hpu.transaction = s.hpu.transaction ∧ (testDrain s).hpu.mask = s.hpu.mask
    ∧ (testDrain s).hpu.result = s.hpu.result ∧ (testDrain s).hpu.lastCode = s.hpu.lastCode
    ∧ (testDrain s).hpu.counters = s.hpu.counters ∧ (testDrain s).hpu.statSel = s.hpu.statSel
    ∧ (testDrain s).hpu.statMode = s.hpu.statMode ∧ (testDrain s).hpu.memberCopy = s.hpu.memberCopy
    ∧ (testDrain s).hpu.mergeCopy = s.hpu.mergeCopy ∧ (testDrain s).hpu.readWord = s.hpu.readWord
    ∧ (testDrain s).hpu.resetnLow = s.hpu.resetnLow ∧ (testDrain s).acu.reason = s.acu.reason
    ∧ (testDrain s).pending = s.pending
    ∧ (testDrain s).pins = s.pins := by
  simp only [testDrain]
  (repeat' split) <;> simp

@[simp] theorem deliverRecord_frame (r : Record) (s : State) :
    (deliverRecord r s).stu.gateHigh = s.stu.gateHigh ∧ (deliverRecord r s).stu.faultSeen = s.stu.faultSeen
    ∧ (deliverRecord r s).stu.guard = s.stu.guard ∧ (deliverRecord r s).stu.take = s.stu.take
    ∧ (deliverRecord r s).stu.index = s.stu.index ∧ (deliverRecord r s).stu.period = s.stu.period
    ∧ (deliverRecord r s).stu.formed = s.stu.formed ∧ (deliverRecord r s).stu.stallFlag = s.stu.stallFlag
    ∧ (deliverRecord r s).stu.solo = s.stu.solo ∧ (deliverRecord r s).stu.soloMade = s.stu.soloMade
    ∧ (deliverRecord r s).stu.time = s.stu.time ∧ (deliverRecord r s).stu.boundaryTime = s.stu.boundaryTime
    ∧ (deliverRecord r s).stu.startSerial = s.stu.startSerial ∧ (deliverRecord r s).ru = s.ru
    ∧ (deliverRecord r s).mu = s.mu ∧ (deliverRecord r s).rcu.projFirst = s.rcu.projFirst
    ∧ (deliverRecord r s).rcu.projCount = s.rcu.projCount ∧ (deliverRecord r s).hc.freezeReason = s.hc.freezeReason
    ∧ (deliverRecord r s).hc.lastSent = s.hc.lastSent ∧ (deliverRecord r s).bac.line = s.bac.line
    ∧ (deliverRecord r s).bac.receiver = s.bac.receiver ∧ (deliverRecord r s).bac.inbound = s.bac.inbound
    ∧ (deliverRecord r s).bac.rosterItem = s.bac.rosterItem ∧ (deliverRecord r s).bac.scanItems = s.bac.scanItems
    ∧ (deliverRecord r s).bac.inTx = s.bac.inTx ∧ (deliverRecord r s).bac.backoff = s.bac.backoff
    ∧ (deliverRecord r s).bac.resetPending = s.bac.resetPending ∧ (deliverRecord r s).bac.idleTime = s.bac.idleTime
    ∧ (deliverRecord r s).spc = s.spc ∧ (deliverRecord r s).cs = s.cs
    ∧ (deliverRecord r s).hpu.transaction = s.hpu.transaction ∧ (deliverRecord r s).hpu.mask = s.hpu.mask
    ∧ (deliverRecord r s).hpu.result = s.hpu.result ∧ (deliverRecord r s).hpu.lastCode = s.hpu.lastCode
    ∧ (deliverRecord r s).hpu.statSel = s.hpu.statSel ∧ (deliverRecord r s).hpu.statMode = s.hpu.statMode
    ∧ (deliverRecord r s).hpu.memberCopy = s.hpu.memberCopy ∧ (deliverRecord r s).hpu.mergeCopy = s.hpu.mergeCopy
    ∧ (deliverRecord r s).hpu.readWord = s.hpu.readWord ∧ (deliverRecord r s).hpu.resetnLow = s.hpu.resetnLow
    ∧ (deliverRecord r s).acu = s.acu ∧ (deliverRecord r s).pending = s.pending
    ∧ (deliverRecord r s).pins = s.pins := by
  simp only [deliverRecord]
  (repeat' split) <;> simp

@[simp] theorem countClose_frame (kind : CloseKind) (e : Entry) (s : State) :
    (countClose kind e s).stu = s.stu ∧ (countClose kind e s).ru.members = s.ru.members
    ∧ (countClose kind e s).ru.selector = s.ru.selector ∧ (countClose kind e s).mu = s.mu
    ∧ (countClose kind e s).rcu = s.rcu ∧ (countClose kind e s).hc = s.hc ∧ (countClose kind e s).bac = s.bac
    ∧ (countClose kind e s).spc = s.spc ∧ (countClose kind e s).cs = s.cs
    ∧ (countClose kind e s).hpu.transaction = s.hpu.transaction ∧ (countClose kind e s).hpu.events = s.hpu.events
    ∧ (countClose kind e s).hpu.mask = s.hpu.mask ∧ (countClose kind e s).hpu.result = s.hpu.result
    ∧ (countClose kind e s).hpu.lastCode = s.hpu.lastCode ∧ (countClose kind e s).hpu.statSel = s.hpu.statSel
    ∧ (countClose kind e s).hpu.statMode = s.hpu.statMode ∧ (countClose kind e s).hpu.memberCopy = s.hpu.memberCopy
    ∧ (countClose kind e s).hpu.mergeCopy = s.hpu.mergeCopy ∧ (countClose kind e s).hpu.readWord = s.hpu.readWord
    ∧ (countClose kind e s).hpu.resetnLow = s.hpu.resetnLow ∧ (countClose kind e s).acu = s.acu
    ∧ (countClose kind e s).pending = s.pending
    ∧ (countClose kind e s).pins = s.pins := by
  simp only [countClose]
  (repeat' split) <;> simp

@[simp] theorem freeSlot_frame (i : Slot) (s : State) :
    (freeSlot i s).stu = s.stu ∧ (freeSlot i s).ru = s.ru ∧ (freeSlot i s).mu.suspended = s.mu.suspended
    ∧ (freeSlot i s).mu.selector = s.mu.selector ∧ (freeSlot i s).rcu = s.rcu ∧ (freeSlot i s).hc = s.hc
    ∧ (freeSlot i s).bac = s.bac ∧ (freeSlot i s).spc = s.spc ∧ (freeSlot i s).cs = s.cs ∧ (freeSlot i s).hpu = s.hpu
    ∧ (freeSlot i s).acu = s.acu ∧ (freeSlot i s).pending = s.pending
    ∧ (freeSlot i s).pins = s.pins := by
  simp only [freeSlot]
  (repeat' split) <;> simp

@[simp] theorem closeSlot_frame (kind : CloseKind) (i : Slot) (s : State) :
    (closeSlot kind i s).stu.gateHigh = s.stu.gateHigh ∧ (closeSlot kind i s).stu.faultSeen = s.stu.faultSeen
    ∧ (closeSlot kind i s).stu.index = s.stu.index ∧ (closeSlot kind i s).stu.formed = s.stu.formed
    ∧ (closeSlot kind i s).stu.solo = s.stu.solo ∧ (closeSlot kind i s).stu.soloMade = s.stu.soloMade
    ∧ (closeSlot kind i s).stu.time = s.stu.time ∧ (closeSlot kind i s).stu.boundaryTime = s.stu.boundaryTime
    ∧ (closeSlot kind i s).stu.startSerial = s.stu.startSerial ∧ (closeSlot kind i s).ru.selector = s.ru.selector
    ∧ (closeSlot kind i s).mu.suspended = s.mu.suspended ∧ (closeSlot kind i s).mu.selector = s.mu.selector
    ∧ (closeSlot kind i s).rcu.projFirst = s.rcu.projFirst ∧ (closeSlot kind i s).rcu.projCount = s.rcu.projCount
    ∧ (closeSlot kind i s).hc.freezeReason = s.hc.freezeReason ∧ (closeSlot kind i s).hc.lastSent = s.hc.lastSent
    ∧ (closeSlot kind i s).bac.line = s.bac.line ∧ (closeSlot kind i s).bac.receiver = s.bac.receiver
    ∧ (closeSlot kind i s).bac.inbound = s.bac.inbound ∧ (closeSlot kind i s).bac.scanItems = s.bac.scanItems
    ∧ (closeSlot kind i s).bac.inTx = s.bac.inTx ∧ (closeSlot kind i s).bac.backoff = s.bac.backoff
    ∧ (closeSlot kind i s).bac.resetPending = s.bac.resetPending ∧ (closeSlot kind i s).bac.idleTime = s.bac.idleTime
    ∧ (closeSlot kind i s).spc = s.spc ∧ (closeSlot kind i s).cs = s.cs
    ∧ (closeSlot kind i s).hpu.transaction = s.hpu.transaction ∧ (closeSlot kind i s).hpu.mask = s.hpu.mask
    ∧ (closeSlot kind i s).hpu.result = s.hpu.result ∧ (closeSlot kind i s).hpu.lastCode = s.hpu.lastCode
    ∧ (closeSlot kind i s).hpu.statSel = s.hpu.statSel ∧ (closeSlot kind i s).hpu.statMode = s.hpu.statMode
    ∧ (closeSlot kind i s).hpu.memberCopy = s.hpu.memberCopy ∧ (closeSlot kind i s).hpu.mergeCopy = s.hpu.mergeCopy
    ∧ (closeSlot kind i s).hpu.readWord = s.hpu.readWord ∧ (closeSlot kind i s).hpu.resetnLow = s.hpu.resetnLow
    ∧ (closeSlot kind i s).acu.reason = s.acu.reason ∧ (closeSlot kind i s).pending = s.pending
    ∧ (closeSlot kind i s).pins = s.pins := by
  simp only [closeSlot]
  (repeat' split) <;> simp

@[simp] theorem closeAll_frame (kind : CloseKind) (p : Slot → Entry → Bool) (s : State) :
    (closeAll kind p s).stu.gateHigh = s.stu.gateHigh ∧ (closeAll kind p s).stu.faultSeen = s.stu.faultSeen
    ∧ (closeAll kind p s).stu.index = s.stu.index ∧ (closeAll kind p s).stu.formed = s.stu.formed
    ∧ (closeAll kind p s).stu.solo = s.stu.solo ∧ (closeAll kind p s).stu.soloMade = s.stu.soloMade
    ∧ (closeAll kind p s).stu.time = s.stu.time ∧ (closeAll kind p s).stu.boundaryTime = s.stu.boundaryTime
    ∧ (closeAll kind p s).stu.startSerial = s.stu.startSerial ∧ (closeAll kind p s).ru.selector = s.ru.selector
    ∧ (closeAll kind p s).mu.suspended = s.mu.suspended ∧ (closeAll kind p s).mu.selector = s.mu.selector
    ∧ (closeAll kind p s).rcu.projFirst = s.rcu.projFirst ∧ (closeAll kind p s).rcu.projCount = s.rcu.projCount
    ∧ (closeAll kind p s).hc.freezeReason = s.hc.freezeReason ∧ (closeAll kind p s).hc.lastSent = s.hc.lastSent
    ∧ (closeAll kind p s).bac.line = s.bac.line ∧ (closeAll kind p s).bac.receiver = s.bac.receiver
    ∧ (closeAll kind p s).bac.inbound = s.bac.inbound ∧ (closeAll kind p s).bac.scanItems = s.bac.scanItems
    ∧ (closeAll kind p s).bac.inTx = s.bac.inTx ∧ (closeAll kind p s).bac.backoff = s.bac.backoff
    ∧ (closeAll kind p s).bac.resetPending = s.bac.resetPending ∧ (closeAll kind p s).bac.idleTime = s.bac.idleTime
    ∧ (closeAll kind p s).spc = s.spc ∧ (closeAll kind p s).cs = s.cs
    ∧ (closeAll kind p s).hpu.transaction = s.hpu.transaction ∧ (closeAll kind p s).hpu.mask = s.hpu.mask
    ∧ (closeAll kind p s).hpu.result = s.hpu.result ∧ (closeAll kind p s).hpu.lastCode = s.hpu.lastCode
    ∧ (closeAll kind p s).hpu.statSel = s.hpu.statSel ∧ (closeAll kind p s).hpu.statMode = s.hpu.statMode
    ∧ (closeAll kind p s).hpu.memberCopy = s.hpu.memberCopy ∧ (closeAll kind p s).hpu.mergeCopy = s.hpu.mergeCopy
    ∧ (closeAll kind p s).hpu.readWord = s.hpu.readWord ∧ (closeAll kind p s).hpu.resetnLow = s.hpu.resetnLow
    ∧ (closeAll kind p s).acu.reason = s.acu.reason ∧ (closeAll kind p s).pending = s.pending
    ∧ (closeAll kind p s).pins = s.pins := by
  simp only [closeAll]
  exact ⟨
    foldl_keep (fun t => t.stu.gateHigh) _ (by simp) _ _, foldl_keep (fun t => t.stu.faultSeen) _ (by simp) _ _,
    foldl_keep (fun t => t.stu.index) _ (by simp) _ _, foldl_keep (fun t => t.stu.formed) _ (by simp) _ _,
    foldl_keep (fun t => t.stu.solo) _ (by simp) _ _, foldl_keep (fun t => t.stu.soloMade) _ (by simp) _ _,
    foldl_keep (fun t => t.stu.time) _ (by simp) _ _, foldl_keep (fun t => t.stu.boundaryTime) _ (by simp) _ _,
    foldl_keep (fun t => t.stu.startSerial) _ (by simp) _ _, foldl_keep (fun t => t.ru.selector) _ (by simp) _ _,
    foldl_keep (fun t => t.mu.suspended) _ (by simp) _ _, foldl_keep (fun t => t.mu.selector) _ (by simp) _ _,
    foldl_keep (fun t => t.rcu.projFirst) _ (by simp) _ _, foldl_keep (fun t => t.rcu.projCount) _ (by simp) _ _,
    foldl_keep (fun t => t.hc.freezeReason) _ (by simp) _ _, foldl_keep (fun t => t.hc.lastSent) _ (by simp) _ _,
    foldl_keep (fun t => t.bac.line) _ (by simp) _ _, foldl_keep (fun t => t.bac.receiver) _ (by simp) _ _,
    foldl_keep (fun t => t.bac.inbound) _ (by simp) _ _, foldl_keep (fun t => t.bac.scanItems) _ (by simp) _ _,
    foldl_keep (fun t => t.bac.inTx) _ (by simp) _ _, foldl_keep (fun t => t.bac.backoff) _ (by simp) _ _,
    foldl_keep (fun t => t.bac.resetPending) _ (by simp) _ _, foldl_keep (fun t => t.bac.idleTime) _ (by simp) _ _,
    foldl_keep (fun t => t.spc) _ (by simp) _ _, foldl_keep (fun t => t.cs) _ (by simp) _ _,
    foldl_keep (fun t => t.hpu.transaction) _ (by simp) _ _, foldl_keep (fun t => t.hpu.mask) _ (by simp) _ _,
    foldl_keep (fun t => t.hpu.result) _ (by simp) _ _, foldl_keep (fun t => t.hpu.lastCode) _ (by simp) _ _,
    foldl_keep (fun t => t.hpu.statSel) _ (by simp) _ _, foldl_keep (fun t => t.hpu.statMode) _ (by simp) _ _,
    foldl_keep (fun t => t.hpu.memberCopy) _ (by simp) _ _, foldl_keep (fun t => t.hpu.mergeCopy) _ (by simp) _ _,
    foldl_keep (fun t => t.hpu.readWord) _ (by simp) _ _, foldl_keep (fun t => t.hpu.resetnLow) _ (by simp) _ _,
    foldl_keep (fun t => t.acu.reason) _ (by simp) _ _, foldl_keep (fun t => t.pending) _ (by simp) _ _,
    foldl_keep (fun t => t.pins) _ (by simp) _ _⟩

@[simp] theorem flushTable_frame (s : State) :
    (flushTable s).stu.gateHigh = s.stu.gateHigh ∧ (flushTable s).stu.faultSeen = s.stu.faultSeen
    ∧ (flushTable s).stu.index = s.stu.index ∧ (flushTable s).stu.formed = s.stu.formed
    ∧ (flushTable s).stu.solo = s.stu.solo ∧ (flushTable s).stu.soloMade = s.stu.soloMade
    ∧ (flushTable s).stu.time = s.stu.time ∧ (flushTable s).stu.boundaryTime = s.stu.boundaryTime
    ∧ (flushTable s).stu.startSerial = s.stu.startSerial ∧ (flushTable s).ru.selector = s.ru.selector
    ∧ (flushTable s).mu.suspended = s.mu.suspended ∧ (flushTable s).mu.selector = s.mu.selector
    ∧ (flushTable s).rcu.projFirst = s.rcu.projFirst ∧ (flushTable s).rcu.projCount = s.rcu.projCount
    ∧ (flushTable s).hc.freezeReason = s.hc.freezeReason ∧ (flushTable s).hc.lastSent = s.hc.lastSent
    ∧ (flushTable s).bac.line = s.bac.line ∧ (flushTable s).bac.receiver = s.bac.receiver
    ∧ (flushTable s).bac.inbound = s.bac.inbound ∧ (flushTable s).bac.scanItems = s.bac.scanItems
    ∧ (flushTable s).bac.inTx = s.bac.inTx ∧ (flushTable s).bac.backoff = s.bac.backoff
    ∧ (flushTable s).bac.resetPending = s.bac.resetPending ∧ (flushTable s).bac.idleTime = s.bac.idleTime
    ∧ (flushTable s).spc = s.spc ∧ (flushTable s).cs = s.cs ∧ (flushTable s).hpu.transaction = s.hpu.transaction
    ∧ (flushTable s).hpu.mask = s.hpu.mask ∧ (flushTable s).hpu.result = s.hpu.result
    ∧ (flushTable s).hpu.lastCode = s.hpu.lastCode ∧ (flushTable s).hpu.statSel = s.hpu.statSel
    ∧ (flushTable s).hpu.statMode = s.hpu.statMode ∧ (flushTable s).hpu.memberCopy = s.hpu.memberCopy
    ∧ (flushTable s).hpu.mergeCopy = s.hpu.mergeCopy ∧ (flushTable s).hpu.readWord = s.hpu.readWord
    ∧ (flushTable s).hpu.resetnLow = s.hpu.resetnLow ∧ (flushTable s).acu.reason = s.acu.reason
    ∧ (flushTable s).pending = s.pending
    ∧ (flushTable s).pins = s.pins := by
  simp [flushTable]

@[simp] theorem enterConfigured_frame (s : State) :
    (enterConfigured s).stu.gateHigh = s.stu.gateHigh ∧ (enterConfigured s).stu.faultSeen = s.stu.faultSeen
    ∧ (enterConfigured s).stu.index = s.stu.index ∧ (enterConfigured s).stu.formed = s.stu.formed
    ∧ (enterConfigured s).stu.solo = s.stu.solo ∧ (enterConfigured s).stu.soloMade = s.stu.soloMade
    ∧ (enterConfigured s).stu.time = s.stu.time ∧ (enterConfigured s).stu.boundaryTime = s.stu.boundaryTime
    ∧ (enterConfigured s).stu.startSerial = s.stu.startSerial ∧ (enterConfigured s).ru.selector = s.ru.selector
    ∧ (enterConfigured s).mu.suspended = s.mu.suspended ∧ (enterConfigured s).mu.selector = s.mu.selector
    ∧ (enterConfigured s).rcu.projFirst = s.rcu.projFirst ∧ (enterConfigured s).rcu.projCount = s.rcu.projCount
    ∧ (enterConfigured s).hc.freezeReason = s.hc.freezeReason ∧ (enterConfigured s).hc.lastSent = s.hc.lastSent
    ∧ (enterConfigured s).bac.line = s.bac.line ∧ (enterConfigured s).bac.receiver = s.bac.receiver
    ∧ (enterConfigured s).bac.inbound = s.bac.inbound ∧ (enterConfigured s).bac.scanItems = s.bac.scanItems
    ∧ (enterConfigured s).bac.inTx = s.bac.inTx ∧ (enterConfigured s).bac.backoff = s.bac.backoff
    ∧ (enterConfigured s).bac.resetPending = s.bac.resetPending ∧ (enterConfigured s).bac.idleTime = s.bac.idleTime
    ∧ (enterConfigured s).spc = s.spc ∧ (enterConfigured s).cs = s.cs
    ∧ (enterConfigured s).hpu.transaction = s.hpu.transaction ∧ (enterConfigured s).hpu.mask = s.hpu.mask
    ∧ (enterConfigured s).hpu.result = s.hpu.result ∧ (enterConfigured s).hpu.lastCode = s.hpu.lastCode
    ∧ (enterConfigured s).hpu.statSel = s.hpu.statSel ∧ (enterConfigured s).hpu.statMode = s.hpu.statMode
    ∧ (enterConfigured s).hpu.memberCopy = s.hpu.memberCopy ∧ (enterConfigured s).hpu.mergeCopy = s.hpu.mergeCopy
    ∧ (enterConfigured s).hpu.readWord = s.hpu.readWord ∧ (enterConfigured s).hpu.resetnLow = s.hpu.resetnLow
    ∧ (enterConfigured s).acu.reason = s.acu.reason ∧ (enterConfigured s).pending = s.pending
    ∧ (enterConfigured s).pins = s.pins := by
  simp [enterConfigured]

@[simp] theorem storeContribution_frame (i : Slot) (e : Entry) (c : Contribution) (s : State) :
    (storeContribution i e c s).stu.gateHigh = s.stu.gateHigh
    ∧ (storeContribution i e c s).stu.faultSeen = s.stu.faultSeen
    ∧ (storeContribution i e c s).stu.index = s.stu.index ∧ (storeContribution i e c s).stu.formed = s.stu.formed
    ∧ (storeContribution i e c s).stu.solo = s.stu.solo ∧ (storeContribution i e c s).stu.soloMade = s.stu.soloMade
    ∧ (storeContribution i e c s).stu.time = s.stu.time
    ∧ (storeContribution i e c s).stu.boundaryTime = s.stu.boundaryTime
    ∧ (storeContribution i e c s).stu.startSerial = s.stu.startSerial
    ∧ (storeContribution i e c s).ru.selector = s.ru.selector
    ∧ (storeContribution i e c s).mu.suspended = s.mu.suspended
    ∧ (storeContribution i e c s).mu.selector = s.mu.selector
    ∧ (storeContribution i e c s).rcu.projFirst = s.rcu.projFirst
    ∧ (storeContribution i e c s).rcu.projCount = s.rcu.projCount
    ∧ (storeContribution i e c s).hc.freezeReason = s.hc.freezeReason
    ∧ (storeContribution i e c s).hc.lastSent = s.hc.lastSent ∧ (storeContribution i e c s).bac.line = s.bac.line
    ∧ (storeContribution i e c s).bac.receiver = s.bac.receiver
    ∧ (storeContribution i e c s).bac.inbound = s.bac.inbound
    ∧ (storeContribution i e c s).bac.scanItems = s.bac.scanItems ∧ (storeContribution i e c s).bac.inTx = s.bac.inTx
    ∧ (storeContribution i e c s).bac.backoff = s.bac.backoff
    ∧ (storeContribution i e c s).bac.resetPending = s.bac.resetPending
    ∧ (storeContribution i e c s).bac.idleTime = s.bac.idleTime ∧ (storeContribution i e c s).spc = s.spc
    ∧ (storeContribution i e c s).cs = s.cs ∧ (storeContribution i e c s).hpu.transaction = s.hpu.transaction
    ∧ (storeContribution i e c s).hpu.mask = s.hpu.mask ∧ (storeContribution i e c s).hpu.result = s.hpu.result
    ∧ (storeContribution i e c s).hpu.lastCode = s.hpu.lastCode
    ∧ (storeContribution i e c s).hpu.statSel = s.hpu.statSel
    ∧ (storeContribution i e c s).hpu.statMode = s.hpu.statMode
    ∧ (storeContribution i e c s).hpu.memberCopy = s.hpu.memberCopy
    ∧ (storeContribution i e c s).hpu.mergeCopy = s.hpu.mergeCopy
    ∧ (storeContribution i e c s).hpu.readWord = s.hpu.readWord
    ∧ (storeContribution i e c s).hpu.resetnLow = s.hpu.resetnLow
    ∧ (storeContribution i e c s).acu.reason = s.acu.reason ∧ (storeContribution i e c s).pending = s.pending
    ∧ (storeContribution i e c s).pins = s.pins := by
  simp only [storeContribution]
  (repeat' split) <;> simp

@[simp] theorem fileOwn_frame (c : Contribution) (s : State) :
    (fileOwn c s).stu.gateHigh = s.stu.gateHigh ∧ (fileOwn c s).stu.faultSeen = s.stu.faultSeen
    ∧ (fileOwn c s).stu.index = s.stu.index ∧ (fileOwn c s).stu.formed = s.stu.formed
    ∧ (fileOwn c s).stu.solo = s.stu.solo ∧ (fileOwn c s).stu.soloMade = s.stu.soloMade
    ∧ (fileOwn c s).stu.time = s.stu.time ∧ (fileOwn c s).stu.boundaryTime = s.stu.boundaryTime
    ∧ (fileOwn c s).stu.startSerial = s.stu.startSerial ∧ (fileOwn c s).ru.selector = s.ru.selector
    ∧ (fileOwn c s).mu.suspended = s.mu.suspended ∧ (fileOwn c s).mu.selector = s.mu.selector
    ∧ (fileOwn c s).rcu.projFirst = s.rcu.projFirst ∧ (fileOwn c s).rcu.projCount = s.rcu.projCount
    ∧ (fileOwn c s).hc.freezeReason = s.hc.freezeReason ∧ (fileOwn c s).hc.lastSent = s.hc.lastSent
    ∧ (fileOwn c s).bac.line = s.bac.line ∧ (fileOwn c s).bac.receiver = s.bac.receiver
    ∧ (fileOwn c s).bac.inbound = s.bac.inbound ∧ (fileOwn c s).bac.scanItems = s.bac.scanItems
    ∧ (fileOwn c s).bac.inTx = s.bac.inTx ∧ (fileOwn c s).bac.backoff = s.bac.backoff
    ∧ (fileOwn c s).bac.resetPending = s.bac.resetPending ∧ (fileOwn c s).bac.idleTime = s.bac.idleTime
    ∧ (fileOwn c s).spc = s.spc ∧ (fileOwn c s).cs = s.cs ∧ (fileOwn c s).hpu.transaction = s.hpu.transaction
    ∧ (fileOwn c s).hpu.mask = s.hpu.mask ∧ (fileOwn c s).hpu.result = s.hpu.result
    ∧ (fileOwn c s).hpu.lastCode = s.hpu.lastCode ∧ (fileOwn c s).hpu.statSel = s.hpu.statSel
    ∧ (fileOwn c s).hpu.statMode = s.hpu.statMode ∧ (fileOwn c s).hpu.memberCopy = s.hpu.memberCopy
    ∧ (fileOwn c s).hpu.mergeCopy = s.hpu.mergeCopy ∧ (fileOwn c s).hpu.readWord = s.hpu.readWord
    ∧ (fileOwn c s).hpu.resetnLow = s.hpu.resetnLow ∧ (fileOwn c s).acu.reason = s.acu.reason
    ∧ (fileOwn c s).pending = s.pending
    ∧ (fileOwn c s).pins = s.pins := by
  simp only [fileOwn]
  (repeat' split) <;> simp

@[simp] theorem shiftMembers_frame (d : Scan) (s : State) :
    (shiftMembers d s).stu = s.stu ∧ (shiftMembers d s).ru.selector = s.ru.selector
    ∧ (shiftMembers d s).ru.reports = s.ru.reports ∧ (shiftMembers d s).mu = s.mu ∧ (shiftMembers d s).rcu = s.rcu
    ∧ (shiftMembers d s).hc = s.hc ∧ (shiftMembers d s).bac = s.bac ∧ (shiftMembers d s).spc = s.spc
    ∧ (shiftMembers d s).cs = s.cs ∧ (shiftMembers d s).hpu = s.hpu ∧ (shiftMembers d s).acu = s.acu
    ∧ (shiftMembers d s).pending = s.pending
    ∧ (shiftMembers d s).pins = s.pins := by
  simp [shiftMembers]

@[simp] theorem realignTable_frame (d : Scan) (s : State) :
    (realignTable d s).stu.gateHigh = s.stu.gateHigh ∧ (realignTable d s).stu.faultSeen = s.stu.faultSeen
    ∧ (realignTable d s).stu.index = s.stu.index ∧ (realignTable d s).stu.formed = s.stu.formed
    ∧ (realignTable d s).stu.solo = s.stu.solo ∧ (realignTable d s).stu.soloMade = s.stu.soloMade
    ∧ (realignTable d s).stu.time = s.stu.time ∧ (realignTable d s).stu.boundaryTime = s.stu.boundaryTime
    ∧ (realignTable d s).stu.startSerial = s.stu.startSerial ∧ (realignTable d s).ru.selector = s.ru.selector
    ∧ (realignTable d s).mu.suspended = s.mu.suspended ∧ (realignTable d s).mu.selector = s.mu.selector
    ∧ (realignTable d s).rcu.projFirst = s.rcu.projFirst ∧ (realignTable d s).rcu.projCount = s.rcu.projCount
    ∧ (realignTable d s).hc.freezeReason = s.hc.freezeReason ∧ (realignTable d s).hc.lastSent = s.hc.lastSent
    ∧ (realignTable d s).bac.line = s.bac.line ∧ (realignTable d s).bac.receiver = s.bac.receiver
    ∧ (realignTable d s).bac.inbound = s.bac.inbound ∧ (realignTable d s).bac.scanItems = s.bac.scanItems
    ∧ (realignTable d s).bac.inTx = s.bac.inTx ∧ (realignTable d s).bac.backoff = s.bac.backoff
    ∧ (realignTable d s).bac.resetPending = s.bac.resetPending ∧ (realignTable d s).bac.idleTime = s.bac.idleTime
    ∧ (realignTable d s).spc = s.spc ∧ (realignTable d s).cs = s.cs
    ∧ (realignTable d s).hpu.transaction = s.hpu.transaction ∧ (realignTable d s).hpu.mask = s.hpu.mask
    ∧ (realignTable d s).hpu.result = s.hpu.result ∧ (realignTable d s).hpu.lastCode = s.hpu.lastCode
    ∧ (realignTable d s).hpu.statSel = s.hpu.statSel ∧ (realignTable d s).hpu.statMode = s.hpu.statMode
    ∧ (realignTable d s).hpu.memberCopy = s.hpu.memberCopy ∧ (realignTable d s).hpu.mergeCopy = s.hpu.mergeCopy
    ∧ (realignTable d s).hpu.readWord = s.hpu.readWord ∧ (realignTable d s).hpu.resetnLow = s.hpu.resetnLow
    ∧ (realignTable d s).acu.reason = s.acu.reason ∧ (realignTable d s).pending = s.pending
    ∧ (realignTable d s).pins = s.pins := by
  simp only [realignTable]
  (repeat' split) <;> simp

@[simp] theorem shiftScanFrames_frame (d : Scan) (s : State) :
    (shiftScanFrames d s).stu = s.stu ∧ (shiftScanFrames d s).ru = s.ru ∧ (shiftScanFrames d s).mu = s.mu
    ∧ (shiftScanFrames d s).rcu = s.rcu ∧ (shiftScanFrames d s).hc = s.hc
    ∧ (shiftScanFrames d s).bac.line = s.bac.line ∧ (shiftScanFrames d s).bac.receiver = s.bac.receiver
    ∧ (shiftScanFrames d s).bac.transmitter = s.bac.transmitter ∧ (shiftScanFrames d s).bac.inbound = s.bac.inbound
    ∧ (shiftScanFrames d s).bac.holdItem = s.bac.holdItem ∧ (shiftScanFrames d s).bac.rosterItem = s.bac.rosterItem
    ∧ (shiftScanFrames d s).bac.busyMark = s.bac.busyMark ∧ (shiftScanFrames d s).bac.backoff = s.bac.backoff
    ∧ (shiftScanFrames d s).bac.resetPending = s.bac.resetPending
    ∧ (shiftScanFrames d s).bac.idleTime = s.bac.idleTime ∧ (shiftScanFrames d s).spc = s.spc
    ∧ (shiftScanFrames d s).cs = s.cs ∧ (shiftScanFrames d s).hpu = s.hpu ∧ (shiftScanFrames d s).acu = s.acu
    ∧ (shiftScanFrames d s).pending = s.pending
    ∧ (shiftScanFrames d s).pins = s.pins := by
  simp [shiftScanFrames]

@[simp] theorem shiftAcu_frame (d : Scan) (s : State) :
    (shiftAcu d s).stu = s.stu ∧ (shiftAcu d s).ru = s.ru ∧ (shiftAcu d s).mu = s.mu ∧ (shiftAcu d s).rcu = s.rcu
    ∧ (shiftAcu d s).hc = s.hc ∧ (shiftAcu d s).bac = s.bac ∧ (shiftAcu d s).spc = s.spc ∧ (shiftAcu d s).cs = s.cs
    ∧ (shiftAcu d s).hpu = s.hpu ∧ (shiftAcu d s).acu.state = s.acu.state ∧ (shiftAcu d s).acu.listen = s.acu.listen
    ∧ (shiftAcu d s).acu.admission = s.acu.admission ∧ (shiftAcu d s).acu.matchingSeen = s.acu.matchingSeen
    ∧ (shiftAcu d s).acu.mismatchingSeen = s.acu.mismatchingSeen
    ∧ (shiftAcu d s).acu.refusalPending = s.acu.refusalPending ∧ (shiftAcu d s).acu.drain = s.acu.drain
    ∧ (shiftAcu d s).acu.reason = s.acu.reason ∧ (shiftAcu d s).pending = s.pending
    ∧ (shiftAcu d s).pins = s.pins := by
  simp only [shiftAcu]
  (repeat' split) <;> simp

@[simp] theorem applyRealign_frame (n : Scan) (s : State) :
    (applyRealign n s).stu.gateHigh = s.stu.gateHigh ∧ (applyRealign n s).stu.faultSeen = s.stu.faultSeen
    ∧ (applyRealign n s).stu.formed = s.stu.formed ∧ (applyRealign n s).stu.solo = s.stu.solo
    ∧ (applyRealign n s).stu.soloMade = s.stu.soloMade ∧ (applyRealign n s).stu.time = s.stu.time
    ∧ (applyRealign n s).stu.boundaryTime = s.stu.boundaryTime
    ∧ (applyRealign n s).stu.startSerial = s.stu.startSerial ∧ (applyRealign n s).ru.selector = s.ru.selector
    ∧ (applyRealign n s).mu.suspended = s.mu.suspended ∧ (applyRealign n s).mu.selector = s.mu.selector
    ∧ (applyRealign n s).rcu.projFirst = s.rcu.projFirst ∧ (applyRealign n s).rcu.projCount = s.rcu.projCount
    ∧ (applyRealign n s).hc.freezeReason = s.hc.freezeReason ∧ (applyRealign n s).hc.lastSent = s.hc.lastSent
    ∧ (applyRealign n s).bac.line = s.bac.line ∧ (applyRealign n s).bac.receiver = s.bac.receiver
    ∧ (applyRealign n s).bac.inbound = s.bac.inbound ∧ (applyRealign n s).bac.backoff = s.bac.backoff
    ∧ (applyRealign n s).bac.resetPending = s.bac.resetPending ∧ (applyRealign n s).bac.idleTime = s.bac.idleTime
    ∧ (applyRealign n s).spc = s.spc ∧ (applyRealign n s).cs = s.cs
    ∧ (applyRealign n s).hpu.transaction = s.hpu.transaction ∧ (applyRealign n s).hpu.mask = s.hpu.mask
    ∧ (applyRealign n s).hpu.result = s.hpu.result ∧ (applyRealign n s).hpu.lastCode = s.hpu.lastCode
    ∧ (applyRealign n s).hpu.statSel = s.hpu.statSel ∧ (applyRealign n s).hpu.statMode = s.hpu.statMode
    ∧ (applyRealign n s).hpu.memberCopy = s.hpu.memberCopy ∧ (applyRealign n s).hpu.mergeCopy = s.hpu.mergeCopy
    ∧ (applyRealign n s).hpu.readWord = s.hpu.readWord ∧ (applyRealign n s).hpu.resetnLow = s.hpu.resetnLow
    ∧ (applyRealign n s).acu.reason = s.acu.reason ∧ (applyRealign n s).pending = s.pending
    ∧ (applyRealign n s).pins = s.pins := by
  simp [applyRealign]

@[simp] theorem realignRequest_frame (n : Scan) (k : NodeId) (s : State) :
    (realignRequest n k s).stu.gateHigh = s.stu.gateHigh ∧ (realignRequest n k s).stu.faultSeen = s.stu.faultSeen
    ∧ (realignRequest n k s).stu.formed = s.stu.formed ∧ (realignRequest n k s).stu.solo = s.stu.solo
    ∧ (realignRequest n k s).stu.soloMade = s.stu.soloMade ∧ (realignRequest n k s).stu.time = s.stu.time
    ∧ (realignRequest n k s).stu.boundaryTime = s.stu.boundaryTime
    ∧ (realignRequest n k s).stu.startSerial = s.stu.startSerial ∧ (realignRequest n k s).ru.selector = s.ru.selector
    ∧ (realignRequest n k s).mu.suspended = s.mu.suspended ∧ (realignRequest n k s).mu.selector = s.mu.selector
    ∧ (realignRequest n k s).rcu.projFirst = s.rcu.projFirst ∧ (realignRequest n k s).rcu.projCount = s.rcu.projCount
    ∧ (realignRequest n k s).hc.freezeReason = s.hc.freezeReason ∧ (realignRequest n k s).hc.lastSent = s.hc.lastSent
    ∧ (realignRequest n k s).bac.line = s.bac.line ∧ (realignRequest n k s).bac.receiver = s.bac.receiver
    ∧ (realignRequest n k s).bac.inbound = s.bac.inbound ∧ (realignRequest n k s).bac.backoff = s.bac.backoff
    ∧ (realignRequest n k s).bac.resetPending = s.bac.resetPending
    ∧ (realignRequest n k s).bac.idleTime = s.bac.idleTime ∧ (realignRequest n k s).spc = s.spc
    ∧ (realignRequest n k s).cs = s.cs ∧ (realignRequest n k s).hpu.transaction = s.hpu.transaction
    ∧ (realignRequest n k s).hpu.mask = s.hpu.mask ∧ (realignRequest n k s).hpu.result = s.hpu.result
    ∧ (realignRequest n k s).hpu.lastCode = s.hpu.lastCode ∧ (realignRequest n k s).hpu.statSel = s.hpu.statSel
    ∧ (realignRequest n k s).hpu.statMode = s.hpu.statMode ∧ (realignRequest n k s).hpu.memberCopy = s.hpu.memberCopy
    ∧ (realignRequest n k s).hpu.mergeCopy = s.hpu.mergeCopy ∧ (realignRequest n k s).hpu.readWord = s.hpu.readWord
    ∧ (realignRequest n k s).hpu.resetnLow = s.hpu.resetnLow ∧ (realignRequest n k s).acu.reason = s.acu.reason
    ∧ (realignRequest n k s).pending = s.pending
    ∧ (realignRequest n k s).pins = s.pins := by
  simp only [realignRequest]
  (repeat' split) <;> simp

@[simp] theorem replaceMembers_frame (table : Vector Member 32) (s : State) :
    (replaceMembers table s).stu.gate = s.stu.gate ∧ (replaceMembers table s).stu.gateHigh = s.stu.gateHigh
    ∧ (replaceMembers table s).stu.faultSeen = s.stu.faultSeen ∧ (replaceMembers table s).stu.guard = s.stu.guard
    ∧ (replaceMembers table s).stu.take = s.stu.take ∧ (replaceMembers table s).stu.index = s.stu.index
    ∧ (replaceMembers table s).stu.period = s.stu.period ∧ (replaceMembers table s).stu.formed = s.stu.formed
    ∧ (replaceMembers table s).stu.stallFlag = s.stu.stallFlag ∧ (replaceMembers table s).stu.solo = s.stu.solo
    ∧ (replaceMembers table s).stu.soloMade = s.stu.soloMade ∧ (replaceMembers table s).stu.time = s.stu.time
    ∧ (replaceMembers table s).stu.boundaryTime = s.stu.boundaryTime
    ∧ (replaceMembers table s).stu.startSerial = s.stu.startSerial
    ∧ (replaceMembers table s).ru.selector = s.ru.selector ∧ (replaceMembers table s).ru.reports = s.ru.reports
    ∧ (replaceMembers table s).mu = s.mu ∧ (replaceMembers table s).rcu = s.rcu ∧ (replaceMembers table s).hc = s.hc
    ∧ (replaceMembers table s).bac = s.bac ∧ (replaceMembers table s).spc = s.spc ∧ (replaceMembers table s).cs = s.cs
    ∧ (replaceMembers table s).hpu = s.hpu ∧ (replaceMembers table s).acu = s.acu
    ∧ (replaceMembers table s).pending = s.pending
    ∧ (replaceMembers table s).pins = s.pins := by
  simp only [replaceMembers]
  (repeat' split) <;> simp

@[simp] theorem removeMembers_frame (table : Vector Member 32) (s : State) :
    (removeMembers table s).stu.gate = s.stu.gate ∧ (removeMembers table s).stu.gateHigh = s.stu.gateHigh
    ∧ (removeMembers table s).stu.faultSeen = s.stu.faultSeen ∧ (removeMembers table s).stu.guard = s.stu.guard
    ∧ (removeMembers table s).stu.take = s.stu.take ∧ (removeMembers table s).stu.index = s.stu.index
    ∧ (removeMembers table s).stu.period = s.stu.period ∧ (removeMembers table s).stu.formed = s.stu.formed
    ∧ (removeMembers table s).stu.stallFlag = s.stu.stallFlag ∧ (removeMembers table s).stu.solo = s.stu.solo
    ∧ (removeMembers table s).stu.soloMade = s.stu.soloMade ∧ (removeMembers table s).stu.time = s.stu.time
    ∧ (removeMembers table s).stu.boundaryTime = s.stu.boundaryTime
    ∧ (removeMembers table s).stu.startSerial = s.stu.startSerial
    ∧ (removeMembers table s).ru.selector = s.ru.selector ∧ (removeMembers table s).ru.reports = s.ru.reports
    ∧ (removeMembers table s).mu = s.mu ∧ (removeMembers table s).rcu = s.rcu ∧ (removeMembers table s).hc = s.hc
    ∧ (removeMembers table s).bac = s.bac ∧ (removeMembers table s).spc = s.spc ∧ (removeMembers table s).cs = s.cs
    ∧ (removeMembers table s).hpu.transaction = s.hpu.transaction ∧ (removeMembers table s).hpu.mask = s.hpu.mask
    ∧ (removeMembers table s).hpu.result = s.hpu.result ∧ (removeMembers table s).hpu.lastCode = s.hpu.lastCode
    ∧ (removeMembers table s).hpu.counters = s.hpu.counters ∧ (removeMembers table s).hpu.statSel = s.hpu.statSel
    ∧ (removeMembers table s).hpu.statMode = s.hpu.statMode
    ∧ (removeMembers table s).hpu.memberCopy = s.hpu.memberCopy
    ∧ (removeMembers table s).hpu.mergeCopy = s.hpu.mergeCopy ∧ (removeMembers table s).hpu.readWord = s.hpu.readWord
    ∧ (removeMembers table s).hpu.resetnLow = s.hpu.resetnLow ∧ (removeMembers table s).acu = s.acu
    ∧ (removeMembers table s).pending = s.pending
    ∧ (removeMembers table s).pins = s.pins := by
  simp only [removeMembers]
  (repeat' split) <;> simp

@[simp] theorem takeReport_frame (r : MissReport) (s : State) :
    (takeReport r s).stu.gate = s.stu.gate ∧ (takeReport r s).stu.gateHigh = s.stu.gateHigh
    ∧ (takeReport r s).stu.faultSeen = s.stu.faultSeen ∧ (takeReport r s).stu.guard = s.stu.guard
    ∧ (takeReport r s).stu.take = s.stu.take ∧ (takeReport r s).stu.index = s.stu.index
    ∧ (takeReport r s).stu.period = s.stu.period ∧ (takeReport r s).stu.formed = s.stu.formed
    ∧ (takeReport r s).stu.stallFlag = s.stu.stallFlag ∧ (takeReport r s).stu.solo = s.stu.solo
    ∧ (takeReport r s).stu.soloMade = s.stu.soloMade ∧ (takeReport r s).stu.time = s.stu.time
    ∧ (takeReport r s).stu.boundaryTime = s.stu.boundaryTime ∧ (takeReport r s).stu.startSerial = s.stu.startSerial
    ∧ (takeReport r s).ru.selector = s.ru.selector ∧ (takeReport r s).ru.reports = s.ru.reports
    ∧ (takeReport r s).mu = s.mu ∧ (takeReport r s).rcu = s.rcu ∧ (takeReport r s).hc = s.hc
    ∧ (takeReport r s).bac = s.bac ∧ (takeReport r s).spc = s.spc ∧ (takeReport r s).cs = s.cs
    ∧ (takeReport r s).hpu.transaction = s.hpu.transaction ∧ (takeReport r s).hpu.mask = s.hpu.mask
    ∧ (takeReport r s).hpu.result = s.hpu.result ∧ (takeReport r s).hpu.lastCode = s.hpu.lastCode
    ∧ (takeReport r s).hpu.counters = s.hpu.counters ∧ (takeReport r s).hpu.statSel = s.hpu.statSel
    ∧ (takeReport r s).hpu.statMode = s.hpu.statMode ∧ (takeReport r s).hpu.memberCopy = s.hpu.memberCopy
    ∧ (takeReport r s).hpu.mergeCopy = s.hpu.mergeCopy ∧ (takeReport r s).hpu.readWord = s.hpu.readWord
    ∧ (takeReport r s).hpu.resetnLow = s.hpu.resetnLow ∧ (takeReport r s).acu = s.acu
    ∧ (takeReport r s).pending = s.pending
    ∧ (takeReport r s).pins = s.pins := by
  simp [takeReport]

@[simp] theorem takeAllReports_frame (s : State) :
    (takeAllReports s).stu.gate = s.stu.gate ∧ (takeAllReports s).stu.gateHigh = s.stu.gateHigh
    ∧ (takeAllReports s).stu.faultSeen = s.stu.faultSeen ∧ (takeAllReports s).stu.guard = s.stu.guard
    ∧ (takeAllReports s).stu.take = s.stu.take ∧ (takeAllReports s).stu.index = s.stu.index
    ∧ (takeAllReports s).stu.period = s.stu.period ∧ (takeAllReports s).stu.formed = s.stu.formed
    ∧ (takeAllReports s).stu.stallFlag = s.stu.stallFlag ∧ (takeAllReports s).stu.solo = s.stu.solo
    ∧ (takeAllReports s).stu.soloMade = s.stu.soloMade ∧ (takeAllReports s).stu.time = s.stu.time
    ∧ (takeAllReports s).stu.boundaryTime = s.stu.boundaryTime
    ∧ (takeAllReports s).stu.startSerial = s.stu.startSerial ∧ (takeAllReports s).ru.selector = s.ru.selector
    ∧ (takeAllReports s).mu = s.mu ∧ (takeAllReports s).rcu = s.rcu ∧ (takeAllReports s).hc = s.hc
    ∧ (takeAllReports s).bac = s.bac ∧ (takeAllReports s).spc = s.spc ∧ (takeAllReports s).cs = s.cs
    ∧ (takeAllReports s).hpu.transaction = s.hpu.transaction ∧ (takeAllReports s).hpu.mask = s.hpu.mask
    ∧ (takeAllReports s).hpu.result = s.hpu.result ∧ (takeAllReports s).hpu.lastCode = s.hpu.lastCode
    ∧ (takeAllReports s).hpu.counters = s.hpu.counters ∧ (takeAllReports s).hpu.statSel = s.hpu.statSel
    ∧ (takeAllReports s).hpu.statMode = s.hpu.statMode ∧ (takeAllReports s).hpu.memberCopy = s.hpu.memberCopy
    ∧ (takeAllReports s).hpu.mergeCopy = s.hpu.mergeCopy ∧ (takeAllReports s).hpu.readWord = s.hpu.readWord
    ∧ (takeAllReports s).hpu.resetnLow = s.hpu.resetnLow ∧ (takeAllReports s).acu = s.acu
    ∧ (takeAllReports s).pending = s.pending
    ∧ (takeAllReports s).pins = s.pins := by
  simp only [takeAllReports]
  exact ⟨
    (foldl_keep (fun t => t.stu.gate) _ (by simp) _ _).trans (by simp),
    (foldl_keep (fun t => t.stu.gateHigh) _ (by simp) _ _).trans (by simp),
    (foldl_keep (fun t => t.stu.faultSeen) _ (by simp) _ _).trans (by simp),
    (foldl_keep (fun t => t.stu.guard) _ (by simp) _ _).trans (by simp),
    (foldl_keep (fun t => t.stu.take) _ (by simp) _ _).trans (by simp),
    (foldl_keep (fun t => t.stu.index) _ (by simp) _ _).trans (by simp),
    (foldl_keep (fun t => t.stu.period) _ (by simp) _ _).trans (by simp),
    (foldl_keep (fun t => t.stu.formed) _ (by simp) _ _).trans (by simp),
    (foldl_keep (fun t => t.stu.stallFlag) _ (by simp) _ _).trans (by simp),
    (foldl_keep (fun t => t.stu.solo) _ (by simp) _ _).trans (by simp),
    (foldl_keep (fun t => t.stu.soloMade) _ (by simp) _ _).trans (by simp),
    (foldl_keep (fun t => t.stu.time) _ (by simp) _ _).trans (by simp),
    (foldl_keep (fun t => t.stu.boundaryTime) _ (by simp) _ _).trans (by simp),
    (foldl_keep (fun t => t.stu.startSerial) _ (by simp) _ _).trans (by simp),
    (foldl_keep (fun t => t.ru.selector) _ (by simp) _ _).trans (by simp),
    (foldl_keep (fun t => t.mu) _ (by simp) _ _).trans (by simp),
    (foldl_keep (fun t => t.rcu) _ (by simp) _ _).trans (by simp),
    (foldl_keep (fun t => t.hc) _ (by simp) _ _).trans (by simp),
    (foldl_keep (fun t => t.bac) _ (by simp) _ _).trans (by simp),
    (foldl_keep (fun t => t.spc) _ (by simp) _ _).trans (by simp),
    (foldl_keep (fun t => t.cs) _ (by simp) _ _).trans (by simp),
    (foldl_keep (fun t => t.hpu.transaction) _ (by simp) _ _).trans (by simp),
    (foldl_keep (fun t => t.hpu.mask) _ (by simp) _ _).trans (by simp),
    (foldl_keep (fun t => t.hpu.result) _ (by simp) _ _).trans (by simp),
    (foldl_keep (fun t => t.hpu.lastCode) _ (by simp) _ _).trans (by simp),
    (foldl_keep (fun t => t.hpu.counters) _ (by simp) _ _).trans (by simp),
    (foldl_keep (fun t => t.hpu.statSel) _ (by simp) _ _).trans (by simp),
    (foldl_keep (fun t => t.hpu.statMode) _ (by simp) _ _).trans (by simp),
    (foldl_keep (fun t => t.hpu.memberCopy) _ (by simp) _ _).trans (by simp),
    (foldl_keep (fun t => t.hpu.mergeCopy) _ (by simp) _ _).trans (by simp),
    (foldl_keep (fun t => t.hpu.readWord) _ (by simp) _ _).trans (by simp),
    (foldl_keep (fun t => t.hpu.resetnLow) _ (by simp) _ _).trans (by simp),
    (foldl_keep (fun t => t.acu) _ (by simp) _ _).trans (by simp),
    (foldl_keep (fun t => t.pending) _ (by simp) _ _).trans (by simp),
    (foldl_keep (fun t => t.pins) _ (by simp) _ _).trans (by simp)⟩

@[simp] theorem rebuildMembers_frame (list : List RosterEntry) (index : Scan) (s : State) :
    (rebuildMembers list index s).stu.gate = s.stu.gate ∧ (rebuildMembers list index s).stu.gateHigh = s.stu.gateHigh
    ∧ (rebuildMembers list index s).stu.faultSeen = s.stu.faultSeen
    ∧ (rebuildMembers list index s).stu.guard = s.stu.guard ∧ (rebuildMembers list index s).stu.take = s.stu.take
    ∧ (rebuildMembers list index s).stu.index = s.stu.index ∧ (rebuildMembers list index s).stu.period = s.stu.period
    ∧ (rebuildMembers list index s).stu.formed = s.stu.formed
    ∧ (rebuildMembers list index s).stu.stallFlag = s.stu.stallFlag
    ∧ (rebuildMembers list index s).stu.solo = s.stu.solo
    ∧ (rebuildMembers list index s).stu.soloMade = s.stu.soloMade
    ∧ (rebuildMembers list index s).stu.time = s.stu.time
    ∧ (rebuildMembers list index s).stu.boundaryTime = s.stu.boundaryTime
    ∧ (rebuildMembers list index s).stu.startSerial = s.stu.startSerial
    ∧ (rebuildMembers list index s).ru.selector = s.ru.selector
    ∧ (rebuildMembers list index s).ru.reports = s.ru.reports ∧ (rebuildMembers list index s).mu = s.mu
    ∧ (rebuildMembers list index s).rcu = s.rcu ∧ (rebuildMembers list index s).hc = s.hc
    ∧ (rebuildMembers list index s).bac = s.bac ∧ (rebuildMembers list index s).spc = s.spc
    ∧ (rebuildMembers list index s).cs = s.cs ∧ (rebuildMembers list index s).hpu = s.hpu
    ∧ (rebuildMembers list index s).acu = s.acu ∧ (rebuildMembers list index s).pending = s.pending
    ∧ (rebuildMembers list index s).pins = s.pins := by
  simp [rebuildMembers]

@[simp] theorem setMember_frame (k : NodeId) (m : Member) (s : State) :
    (setMember k m s).stu = s.stu ∧ (setMember k m s).ru.selector = s.ru.selector
    ∧ (setMember k m s).ru.reports = s.ru.reports ∧ (setMember k m s).mu = s.mu ∧ (setMember k m s).rcu = s.rcu
    ∧ (setMember k m s).hc = s.hc ∧ (setMember k m s).bac = s.bac ∧ (setMember k m s).spc = s.spc
    ∧ (setMember k m s).cs = s.cs ∧ (setMember k m s).hpu = s.hpu ∧ (setMember k m s).acu = s.acu
    ∧ (setMember k m s).pending = s.pending
    ∧ (setMember k m s).pins = s.pins := by
  simp [setMember]

@[simp] theorem soloOff_frame (s : State) :
    (soloOff s).stu.gate = s.stu.gate ∧ (soloOff s).stu.gateHigh = s.stu.gateHigh
    ∧ (soloOff s).stu.faultSeen = s.stu.faultSeen ∧ (soloOff s).stu.guard = s.stu.guard
    ∧ (soloOff s).stu.take = s.stu.take ∧ (soloOff s).stu.index = s.stu.index ∧ (soloOff s).stu.formed = s.stu.formed
    ∧ (soloOff s).stu.stall = s.stu.stall ∧ (soloOff s).stu.stallFlag = s.stu.stallFlag
    ∧ (soloOff s).stu.soloMade = s.stu.soloMade ∧ (soloOff s).stu.time = s.stu.time
    ∧ (soloOff s).stu.boundaryTime = s.stu.boundaryTime ∧ (soloOff s).stu.startSerial = s.stu.startSerial
    ∧ (soloOff s).ru = s.ru ∧ (soloOff s).mu = s.mu ∧ (soloOff s).rcu = s.rcu ∧ (soloOff s).hc = s.hc
    ∧ (soloOff s).bac = s.bac ∧ (soloOff s).spc = s.spc ∧ (soloOff s).cs = s.cs ∧ (soloOff s).hpu = s.hpu
    ∧ (soloOff s).acu = s.acu ∧ (soloOff s).pending = s.pending
    ∧ (soloOff s).pins = s.pins := by
  simp only [soloOff]
  (repeat' split) <;> simp

@[simp] theorem endCalibration_frame (r : CalResult) (s : State) :
    (endCalibration r s).stu.gate = s.stu.gate ∧ (endCalibration r s).stu.gateHigh = s.stu.gateHigh
    ∧ (endCalibration r s).stu.faultSeen = s.stu.faultSeen ∧ (endCalibration r s).stu.guard = s.stu.guard
    ∧ (endCalibration r s).stu.take = s.stu.take ∧ (endCalibration r s).stu.index = s.stu.index
    ∧ (endCalibration r s).stu.formed = s.stu.formed ∧ (endCalibration r s).stu.stall = s.stu.stall
    ∧ (endCalibration r s).stu.stallFlag = s.stu.stallFlag ∧ (endCalibration r s).stu.soloMade = s.stu.soloMade
    ∧ (endCalibration r s).stu.time = s.stu.time ∧ (endCalibration r s).stu.boundaryTime = s.stu.boundaryTime
    ∧ (endCalibration r s).stu.startSerial = s.stu.startSerial ∧ (endCalibration r s).ru = s.ru
    ∧ (endCalibration r s).mu = s.mu ∧ (endCalibration r s).rcu = s.rcu ∧ (endCalibration r s).hc = s.hc
    ∧ (endCalibration r s).bac = s.bac ∧ (endCalibration r s).spc.capture = s.spc.capture
    ∧ (endCalibration r s).spc.tag = s.spc.tag ∧ (endCalibration r s).spc.ready = s.spc.ready
    ∧ (endCalibration r s).spc.raw = s.spc.raw ∧ (endCalibration r s).spc.table = s.spc.table
    ∧ (endCalibration r s).spc.elapsed = s.spc.elapsed ∧ (endCalibration r s).cs = s.cs
    ∧ (endCalibration r s).hpu.transaction = s.hpu.transaction ∧ (endCalibration r s).hpu.mask = s.hpu.mask
    ∧ (endCalibration r s).hpu.result = s.hpu.result ∧ (endCalibration r s).hpu.lastCode = s.hpu.lastCode
    ∧ (endCalibration r s).hpu.counters = s.hpu.counters ∧ (endCalibration r s).hpu.statSel = s.hpu.statSel
    ∧ (endCalibration r s).hpu.statMode = s.hpu.statMode ∧ (endCalibration r s).hpu.memberCopy = s.hpu.memberCopy
    ∧ (endCalibration r s).hpu.mergeCopy = s.hpu.mergeCopy ∧ (endCalibration r s).hpu.readWord = s.hpu.readWord
    ∧ (endCalibration r s).hpu.resetnLow = s.hpu.resetnLow ∧ (endCalibration r s).acu = s.acu
    ∧ (endCalibration r s).pending = s.pending
    ∧ (endCalibration r s).pins = s.pins
    ∧ (endCalibration r s).spc.sdata = s.spc.sdata ∧ (endCalibration r s).spc.clocked = s.spc.clocked
    ∧ (endCalibration r s).spc.clockTime = s.spc.clockTime := by
  simp [endCalibration]

@[simp] theorem abortCalibration_frame (s : State) :
    (abortCalibration s).stu.gate = s.stu.gate ∧ (abortCalibration s).stu.gateHigh = s.stu.gateHigh
    ∧ (abortCalibration s).stu.faultSeen = s.stu.faultSeen ∧ (abortCalibration s).stu.guard = s.stu.guard
    ∧ (abortCalibration s).stu.take = s.stu.take ∧ (abortCalibration s).stu.index = s.stu.index
    ∧ (abortCalibration s).stu.formed = s.stu.formed ∧ (abortCalibration s).stu.stall = s.stu.stall
    ∧ (abortCalibration s).stu.stallFlag = s.stu.stallFlag ∧ (abortCalibration s).stu.soloMade = s.stu.soloMade
    ∧ (abortCalibration s).stu.time = s.stu.time ∧ (abortCalibration s).stu.boundaryTime = s.stu.boundaryTime
    ∧ (abortCalibration s).stu.startSerial = s.stu.startSerial ∧ (abortCalibration s).ru = s.ru
    ∧ (abortCalibration s).mu = s.mu ∧ (abortCalibration s).rcu = s.rcu ∧ (abortCalibration s).hc = s.hc
    ∧ (abortCalibration s).bac = s.bac ∧ (abortCalibration s).spc.capture = s.spc.capture
    ∧ (abortCalibration s).spc.tag = s.spc.tag ∧ (abortCalibration s).spc.ready = s.spc.ready
    ∧ (abortCalibration s).spc.raw = s.spc.raw ∧ (abortCalibration s).spc.table = s.spc.table
    ∧ (abortCalibration s).spc.elapsed = s.spc.elapsed ∧ (abortCalibration s).cs = s.cs
    ∧ (abortCalibration s).hpu.transaction = s.hpu.transaction ∧ (abortCalibration s).hpu.mask = s.hpu.mask
    ∧ (abortCalibration s).hpu.result = s.hpu.result ∧ (abortCalibration s).hpu.lastCode = s.hpu.lastCode
    ∧ (abortCalibration s).hpu.counters = s.hpu.counters ∧ (abortCalibration s).hpu.statSel = s.hpu.statSel
    ∧ (abortCalibration s).hpu.statMode = s.hpu.statMode ∧ (abortCalibration s).hpu.memberCopy = s.hpu.memberCopy
    ∧ (abortCalibration s).hpu.mergeCopy = s.hpu.mergeCopy ∧ (abortCalibration s).hpu.readWord = s.hpu.readWord
    ∧ (abortCalibration s).hpu.resetnLow = s.hpu.resetnLow ∧ (abortCalibration s).acu = s.acu
    ∧ (abortCalibration s).pending = s.pending
    ∧ (abortCalibration s).pins = s.pins
    ∧ (abortCalibration s).spc.sdata = s.spc.sdata ∧ (abortCalibration s).spc.clocked = s.spc.clocked
    ∧ (abortCalibration s).spc.clockTime = s.spc.clockTime := by
  simp only [abortCalibration]
  (repeat' split) <;> simp

@[simp] theorem formedSignal_frame (tag : Option CaptureTag) (s : State) :
    (formedSignal tag s).stu.gateHigh = s.stu.gateHigh ∧ (formedSignal tag s).stu.faultSeen = s.stu.faultSeen
    ∧ (formedSignal tag s).stu.guard = s.stu.guard ∧ (formedSignal tag s).stu.take = s.stu.take
    ∧ (formedSignal tag s).stu.index = s.stu.index ∧ (formedSignal tag s).stu.period = s.stu.period
    ∧ (formedSignal tag s).stu.stallFlag = s.stu.stallFlag ∧ (formedSignal tag s).stu.solo = s.stu.solo
    ∧ (formedSignal tag s).stu.soloMade = s.stu.soloMade ∧ (formedSignal tag s).stu.time = s.stu.time
    ∧ (formedSignal tag s).stu.boundaryTime = s.stu.boundaryTime
    ∧ (formedSignal tag s).stu.startSerial = s.stu.startSerial ∧ (formedSignal tag s).ru = s.ru
    ∧ (formedSignal tag s).mu = s.mu ∧ (formedSignal tag s).rcu = s.rcu ∧ (formedSignal tag s).hc = s.hc
    ∧ (formedSignal tag s).bac = s.bac ∧ (formedSignal tag s).spc = s.spc ∧ (formedSignal tag s).cs = s.cs
    ∧ (formedSignal tag s).hpu = s.hpu ∧ (formedSignal tag s).acu = s.acu ∧ (formedSignal tag s).pending = s.pending
    ∧ (formedSignal tag s).pins = s.pins := by
  simp only [formedSignal]
  (repeat' split) <;> simp

@[simp] theorem handOn_frame (c : Contribution) (tag : Option CaptureTag) (s : State) :
    (handOn c tag s).stu.gateHigh = s.stu.gateHigh ∧ (handOn c tag s).stu.faultSeen = s.stu.faultSeen
    ∧ (handOn c tag s).stu.index = s.stu.index ∧ (handOn c tag s).stu.solo = s.stu.solo
    ∧ (handOn c tag s).stu.soloMade = s.stu.soloMade ∧ (handOn c tag s).stu.time = s.stu.time
    ∧ (handOn c tag s).stu.boundaryTime = s.stu.boundaryTime ∧ (handOn c tag s).stu.startSerial = s.stu.startSerial
    ∧ (handOn c tag s).ru.selector = s.ru.selector ∧ (handOn c tag s).mu.suspended = s.mu.suspended
    ∧ (handOn c tag s).mu.selector = s.mu.selector ∧ (handOn c tag s).rcu.projFirst = s.rcu.projFirst
    ∧ (handOn c tag s).rcu.projCount = s.rcu.projCount ∧ (handOn c tag s).hc.freezeReason = s.hc.freezeReason
    ∧ (handOn c tag s).hc.lastSent = s.hc.lastSent ∧ (handOn c tag s).bac.line = s.bac.line
    ∧ (handOn c tag s).bac.receiver = s.bac.receiver ∧ (handOn c tag s).bac.inbound = s.bac.inbound
    ∧ (handOn c tag s).bac.inTx = s.bac.inTx ∧ (handOn c tag s).bac.backoff = s.bac.backoff
    ∧ (handOn c tag s).bac.resetPending = s.bac.resetPending ∧ (handOn c tag s).bac.idleTime = s.bac.idleTime
    ∧ (handOn c tag s).spc = s.spc ∧ (handOn c tag s).cs = s.cs ∧ (handOn c tag s).hpu.transaction = s.hpu.transaction
    ∧ (handOn c tag s).hpu.mask = s.hpu.mask ∧ (handOn c tag s).hpu.result = s.hpu.result
    ∧ (handOn c tag s).hpu.lastCode = s.hpu.lastCode ∧ (handOn c tag s).hpu.statSel = s.hpu.statSel
    ∧ (handOn c tag s).hpu.statMode = s.hpu.statMode ∧ (handOn c tag s).hpu.memberCopy = s.hpu.memberCopy
    ∧ (handOn c tag s).hpu.mergeCopy = s.hpu.mergeCopy ∧ (handOn c tag s).hpu.readWord = s.hpu.readWord
    ∧ (handOn c tag s).hpu.resetnLow = s.hpu.resetnLow ∧ (handOn c tag s).acu.reason = s.acu.reason
    ∧ (handOn c tag s).pending = s.pending
    ∧ (handOn c tag s).pins = s.pins := by
  simp only [handOn]
  (repeat' split) <;> simp

@[simp] theorem endWithoutSamples_frame (failing : Channel) (s : State) :
    (endWithoutSamples failing s).stu.gateHigh = s.stu.gateHigh
    ∧ (endWithoutSamples failing s).stu.faultSeen = s.stu.faultSeen
    ∧ (endWithoutSamples failing s).stu.index = s.stu.index
    ∧ (endWithoutSamples failing s).stu.soloMade = s.stu.soloMade
    ∧ (endWithoutSamples failing s).stu.time = s.stu.time
    ∧ (endWithoutSamples failing s).stu.boundaryTime = s.stu.boundaryTime
    ∧ (endWithoutSamples failing s).stu.startSerial = s.stu.startSerial
    ∧ (endWithoutSamples failing s).ru.selector = s.ru.selector
    ∧ (endWithoutSamples failing s).mu.suspended = s.mu.suspended
    ∧ (endWithoutSamples failing s).mu.selector = s.mu.selector
    ∧ (endWithoutSamples failing s).rcu.projFirst = s.rcu.projFirst
    ∧ (endWithoutSamples failing s).rcu.projCount = s.rcu.projCount
    ∧ (endWithoutSamples failing s).hc.freezeReason = s.hc.freezeReason
    ∧ (endWithoutSamples failing s).hc.lastSent = s.hc.lastSent ∧ (endWithoutSamples failing s).bac.line = s.bac.line
    ∧ (endWithoutSamples failing s).bac.receiver = s.bac.receiver
    ∧ (endWithoutSamples failing s).bac.inbound = s.bac.inbound ∧ (endWithoutSamples failing s).bac.inTx = s.bac.inTx
    ∧ (endWithoutSamples failing s).bac.backoff = s.bac.backoff
    ∧ (endWithoutSamples failing s).bac.resetPending = s.bac.resetPending
    ∧ (endWithoutSamples failing s).bac.idleTime = s.bac.idleTime ∧ (endWithoutSamples failing s).spc.tag = s.spc.tag
    ∧ (endWithoutSamples failing s).spc.ready = s.spc.ready ∧ (endWithoutSamples failing s).spc.raw = s.spc.raw
    ∧ (endWithoutSamples failing s).spc.table = s.spc.table
    ∧ (endWithoutSamples failing s).spc.elapsed = s.spc.elapsed ∧ (endWithoutSamples failing s).cs = s.cs
    ∧ (endWithoutSamples failing s).hpu.transaction = s.hpu.transaction
    ∧ (endWithoutSamples failing s).hpu.mask = s.hpu.mask ∧ (endWithoutSamples failing s).hpu.result = s.hpu.result
    ∧ (endWithoutSamples failing s).hpu.lastCode = s.hpu.lastCode
    ∧ (endWithoutSamples failing s).hpu.statSel = s.hpu.statSel
    ∧ (endWithoutSamples failing s).hpu.statMode = s.hpu.statMode
    ∧ (endWithoutSamples failing s).hpu.memberCopy = s.hpu.memberCopy
    ∧ (endWithoutSamples failing s).hpu.mergeCopy = s.hpu.mergeCopy
    ∧ (endWithoutSamples failing s).hpu.readWord = s.hpu.readWord
    ∧ (endWithoutSamples failing s).hpu.resetnLow = s.hpu.resetnLow
    ∧ (endWithoutSamples failing s).acu.reason = s.acu.reason ∧ (endWithoutSamples failing s).pending = s.pending
    ∧ (endWithoutSamples failing s).pins = s.pins
    ∧ (endWithoutSamples failing s).spc.sdata = s.spc.sdata
    ∧ (endWithoutSamples failing s).spc.clocked = s.spc.clocked
    ∧ (endWithoutSamples failing s).spc.clockTime = s.spc.clockTime := by
  simp only [endWithoutSamples]
  (repeat' split) <;> simp

@[simp] theorem cutCapture_frame (s : State) :
    (cutCapture s).stu.gateHigh = s.stu.gateHigh ∧ (cutCapture s).stu.faultSeen = s.stu.faultSeen
    ∧ (cutCapture s).stu.index = s.stu.index ∧ (cutCapture s).stu.soloMade = s.stu.soloMade
    ∧ (cutCapture s).stu.time = s.stu.time ∧ (cutCapture s).stu.boundaryTime = s.stu.boundaryTime
    ∧ (cutCapture s).stu.startSerial = s.stu.startSerial ∧ (cutCapture s).ru.selector = s.ru.selector
    ∧ (cutCapture s).mu.suspended = s.mu.suspended ∧ (cutCapture s).mu.selector = s.mu.selector
    ∧ (cutCapture s).rcu.projFirst = s.rcu.projFirst ∧ (cutCapture s).rcu.projCount = s.rcu.projCount
    ∧ (cutCapture s).hc.freezeReason = s.hc.freezeReason ∧ (cutCapture s).hc.lastSent = s.hc.lastSent
    ∧ (cutCapture s).bac.line = s.bac.line ∧ (cutCapture s).bac.receiver = s.bac.receiver
    ∧ (cutCapture s).bac.inbound = s.bac.inbound ∧ (cutCapture s).bac.inTx = s.bac.inTx
    ∧ (cutCapture s).bac.backoff = s.bac.backoff ∧ (cutCapture s).bac.resetPending = s.bac.resetPending
    ∧ (cutCapture s).bac.idleTime = s.bac.idleTime ∧ (cutCapture s).spc.tag = s.spc.tag
    ∧ (cutCapture s).spc.ready = s.spc.ready ∧ (cutCapture s).spc.raw = s.spc.raw
    ∧ (cutCapture s).spc.table = s.spc.table ∧ (cutCapture s).spc.elapsed = s.spc.elapsed ∧ (cutCapture s).cs = s.cs
    ∧ (cutCapture s).hpu.transaction = s.hpu.transaction ∧ (cutCapture s).hpu.mask = s.hpu.mask
    ∧ (cutCapture s).hpu.result = s.hpu.result ∧ (cutCapture s).hpu.lastCode = s.hpu.lastCode
    ∧ (cutCapture s).hpu.statSel = s.hpu.statSel ∧ (cutCapture s).hpu.statMode = s.hpu.statMode
    ∧ (cutCapture s).hpu.memberCopy = s.hpu.memberCopy ∧ (cutCapture s).hpu.mergeCopy = s.hpu.mergeCopy
    ∧ (cutCapture s).hpu.readWord = s.hpu.readWord ∧ (cutCapture s).hpu.resetnLow = s.hpu.resetnLow
    ∧ (cutCapture s).acu.reason = s.acu.reason ∧ (cutCapture s).pending = s.pending
    ∧ (cutCapture s).pins = s.pins
    ∧ (cutCapture s).spc.sdata = s.spc.sdata ∧ (cutCapture s).spc.clocked = s.spc.clocked
    ∧ (cutCapture s).spc.clockTime = s.spc.clockTime := by
  simp only [cutCapture]
  (repeat' split) <;> simp

@[simp] theorem captureStart_frame (kind : StartKind) (s : State) :
    (captureStart kind s).stu.gateHigh = s.stu.gateHigh ∧ (captureStart kind s).stu.faultSeen = s.stu.faultSeen
    ∧ (captureStart kind s).stu.index = s.stu.index ∧ (captureStart kind s).stu.soloMade = s.stu.soloMade
    ∧ (captureStart kind s).stu.time = s.stu.time ∧ (captureStart kind s).stu.boundaryTime = s.stu.boundaryTime
    ∧ (captureStart kind s).stu.startSerial = s.stu.startSerial ∧ (captureStart kind s).ru.selector = s.ru.selector
    ∧ (captureStart kind s).mu.suspended = s.mu.suspended ∧ (captureStart kind s).mu.selector = s.mu.selector
    ∧ (captureStart kind s).rcu.projFirst = s.rcu.projFirst ∧ (captureStart kind s).rcu.projCount = s.rcu.projCount
    ∧ (captureStart kind s).hc.freezeReason = s.hc.freezeReason ∧ (captureStart kind s).hc.lastSent = s.hc.lastSent
    ∧ (captureStart kind s).bac.line = s.bac.line ∧ (captureStart kind s).bac.receiver = s.bac.receiver
    ∧ (captureStart kind s).bac.inbound = s.bac.inbound ∧ (captureStart kind s).bac.inTx = s.bac.inTx
    ∧ (captureStart kind s).bac.backoff = s.bac.backoff ∧ (captureStart kind s).bac.resetPending = s.bac.resetPending
    ∧ (captureStart kind s).bac.idleTime = s.bac.idleTime ∧ (captureStart kind s).spc.table = s.spc.table
    ∧ (captureStart kind s).cs = s.cs ∧ (captureStart kind s).hpu.transaction = s.hpu.transaction
    ∧ (captureStart kind s).hpu.mask = s.hpu.mask ∧ (captureStart kind s).hpu.result = s.hpu.result
    ∧ (captureStart kind s).hpu.lastCode = s.hpu.lastCode ∧ (captureStart kind s).hpu.statSel = s.hpu.statSel
    ∧ (captureStart kind s).hpu.statMode = s.hpu.statMode ∧ (captureStart kind s).hpu.memberCopy = s.hpu.memberCopy
    ∧ (captureStart kind s).hpu.mergeCopy = s.hpu.mergeCopy ∧ (captureStart kind s).hpu.readWord = s.hpu.readWord
    ∧ (captureStart kind s).hpu.resetnLow = s.hpu.resetnLow ∧ (captureStart kind s).acu.reason = s.acu.reason
    ∧ (captureStart kind s).pending = s.pending
    ∧ (captureStart kind s).pins = s.pins
    ∧ (captureStart kind s).spc.sdata = s.spc.sdata ∧ (captureStart kind s).spc.clockTime = s.spc.clockTime := by
  simp only [captureStart]
  (repeat' split) <;> simp

@[simp] theorem placeResult_frame (r : CommandResult) (s : State) :
    (placeResult r s).stu = s.stu ∧ (placeResult r s).ru = s.ru ∧ (placeResult r s).mu = s.mu
    ∧ (placeResult r s).rcu = s.rcu ∧ (placeResult r s).hc = s.hc ∧ (placeResult r s).bac = s.bac
    ∧ (placeResult r s).spc = s.spc ∧ (placeResult r s).cs = s.cs
    ∧ (placeResult r s).hpu.transaction = s.hpu.transaction ∧ (placeResult r s).hpu.events = s.hpu.events
    ∧ (placeResult r s).hpu.mask = s.hpu.mask ∧ (placeResult r s).hpu.lastCode = s.hpu.lastCode
    ∧ (placeResult r s).hpu.counters = s.hpu.counters ∧ (placeResult r s).hpu.statSel = s.hpu.statSel
    ∧ (placeResult r s).hpu.statMode = s.hpu.statMode ∧ (placeResult r s).hpu.memberCopy = s.hpu.memberCopy
    ∧ (placeResult r s).hpu.mergeCopy = s.hpu.mergeCopy ∧ (placeResult r s).hpu.readWord = s.hpu.readWord
    ∧ (placeResult r s).hpu.resetnLow = s.hpu.resetnLow ∧ (placeResult r s).acu = s.acu
    ∧ (placeResult r s).pending = s.pending
    ∧ (placeResult r s).pins = s.pins := by
  simp only [placeResult]
  (repeat' split) <;> simp

@[simp] theorem answer_frame (c : HostCommand) (code : ResultCode) (s : State) :
    (answer c code s).stu = s.stu ∧ (answer c code s).ru = s.ru ∧ (answer c code s).mu = s.mu
    ∧ (answer c code s).rcu = s.rcu ∧ (answer c code s).hc = s.hc ∧ (answer c code s).bac = s.bac
    ∧ (answer c code s).spc = s.spc ∧ (answer c code s).cs = s.cs
    ∧ (answer c code s).hpu.transaction = s.hpu.transaction ∧ (answer c code s).hpu.events = s.hpu.events
    ∧ (answer c code s).hpu.mask = s.hpu.mask ∧ (answer c code s).hpu.lastCode = s.hpu.lastCode
    ∧ (answer c code s).hpu.counters = s.hpu.counters ∧ (answer c code s).hpu.statSel = s.hpu.statSel
    ∧ (answer c code s).hpu.statMode = s.hpu.statMode ∧ (answer c code s).hpu.memberCopy = s.hpu.memberCopy
    ∧ (answer c code s).hpu.mergeCopy = s.hpu.mergeCopy ∧ (answer c code s).hpu.readWord = s.hpu.readWord
    ∧ (answer c code s).hpu.resetnLow = s.hpu.resetnLow ∧ (answer c code s).acu = s.acu
    ∧ (answer c code s).pending = s.pending
    ∧ (answer c code s).pins = s.pins := by
  simp [answer]

@[simp] theorem writeTaken_frame (s : State) :
    (writeTaken s).stu = s.stu ∧ (writeTaken s).ru = s.ru ∧ (writeTaken s).mu = s.mu ∧ (writeTaken s).rcu = s.rcu
    ∧ (writeTaken s).hc = s.hc ∧ (writeTaken s).bac = s.bac ∧ (writeTaken s).spc = s.spc ∧ (writeTaken s).cs = s.cs
    ∧ (writeTaken s).hpu.events = s.hpu.events ∧ (writeTaken s).hpu.mask = s.hpu.mask
    ∧ (writeTaken s).hpu.result = s.hpu.result ∧ (writeTaken s).hpu.lastCode = s.hpu.lastCode
    ∧ (writeTaken s).hpu.counters = s.hpu.counters ∧ (writeTaken s).hpu.statSel = s.hpu.statSel
    ∧ (writeTaken s).hpu.statMode = s.hpu.statMode ∧ (writeTaken s).hpu.memberCopy = s.hpu.memberCopy
    ∧ (writeTaken s).hpu.mergeCopy = s.hpu.mergeCopy ∧ (writeTaken s).hpu.readWord = s.hpu.readWord
    ∧ (writeTaken s).hpu.resetnLow = s.hpu.resetnLow ∧ (writeTaken s).acu = s.acu ∧ (writeTaken s).pending = s.pending
    ∧ (writeTaken s).pins = s.pins := by
  simp [writeTaken]

@[simp] theorem readTaken_frame (w : Word) (s : State) :
    (readTaken w s).stu = s.stu ∧ (readTaken w s).ru = s.ru ∧ (readTaken w s).mu = s.mu ∧ (readTaken w s).rcu = s.rcu
    ∧ (readTaken w s).hc = s.hc ∧ (readTaken w s).bac = s.bac ∧ (readTaken w s).spc = s.spc
    ∧ (readTaken w s).cs = s.cs ∧ (readTaken w s).hpu.events = s.hpu.events ∧ (readTaken w s).hpu.mask = s.hpu.mask
    ∧ (readTaken w s).hpu.result = s.hpu.result ∧ (readTaken w s).hpu.lastCode = s.hpu.lastCode
    ∧ (readTaken w s).hpu.counters = s.hpu.counters ∧ (readTaken w s).hpu.statSel = s.hpu.statSel
    ∧ (readTaken w s).hpu.statMode = s.hpu.statMode ∧ (readTaken w s).hpu.memberCopy = s.hpu.memberCopy
    ∧ (readTaken w s).hpu.mergeCopy = s.hpu.mergeCopy ∧ (readTaken w s).hpu.resetnLow = s.hpu.resetnLow
    ∧ (readTaken w s).acu = s.acu ∧ (readTaken w s).pending = s.pending
    ∧ (readTaken w s).pins = s.pins := by
  simp [readTaken]

@[simp] theorem commandTaken_frame (code : Word) (s : State) :
    (commandTaken code s).stu = s.stu ∧ (commandTaken code s).ru = s.ru ∧ (commandTaken code s).mu = s.mu
    ∧ (commandTaken code s).rcu = s.rcu ∧ (commandTaken code s).hc = s.hc ∧ (commandTaken code s).bac = s.bac
    ∧ (commandTaken code s).spc = s.spc ∧ (commandTaken code s).cs = s.cs
    ∧ (commandTaken code s).hpu.events = s.hpu.events ∧ (commandTaken code s).hpu.mask = s.hpu.mask
    ∧ (commandTaken code s).hpu.result = s.hpu.result ∧ (commandTaken code s).hpu.counters = s.hpu.counters
    ∧ (commandTaken code s).hpu.statSel = s.hpu.statSel ∧ (commandTaken code s).hpu.statMode = s.hpu.statMode
    ∧ (commandTaken code s).hpu.memberCopy = s.hpu.memberCopy ∧ (commandTaken code s).hpu.mergeCopy = s.hpu.mergeCopy
    ∧ (commandTaken code s).hpu.readWord = s.hpu.readWord ∧ (commandTaken code s).hpu.resetnLow = s.hpu.resetnLow
    ∧ (commandTaken code s).acu = s.acu ∧ (commandTaken code s).pending = s.pending
    ∧ (commandTaken code s).pins = s.pins := by
  simp [commandTaken]

@[simp] theorem enterListening_frame (s : State) :
    (enterListening s).stu.gateHigh = s.stu.gateHigh ∧ (enterListening s).stu.faultSeen = s.stu.faultSeen
    ∧ (enterListening s).stu.guard = s.stu.guard ∧ (enterListening s).stu.take = s.stu.take
    ∧ (enterListening s).stu.index = s.stu.index ∧ (enterListening s).stu.formed = s.stu.formed
    ∧ (enterListening s).stu.stallFlag = s.stu.stallFlag ∧ (enterListening s).stu.soloMade = s.stu.soloMade
    ∧ (enterListening s).stu.time = s.stu.time ∧ (enterListening s).stu.boundaryTime = s.stu.boundaryTime
    ∧ (enterListening s).stu.startSerial = s.stu.startSerial ∧ (enterListening s).ru = s.ru
    ∧ (enterListening s).mu = s.mu ∧ (enterListening s).rcu = s.rcu
    ∧ (enterListening s).hc.backlogReason = s.hc.backlogReason
    ∧ (enterListening s).hc.freezeReason = s.hc.freezeReason ∧ (enterListening s).hc.lastSent = s.hc.lastSent
    ∧ (enterListening s).bac.line = s.bac.line ∧ (enterListening s).bac.receiver = s.bac.receiver
    ∧ (enterListening s).bac.inbound = s.bac.inbound ∧ (enterListening s).bac.rosterItem = s.bac.rosterItem
    ∧ (enterListening s).bac.scanItems = s.bac.scanItems ∧ (enterListening s).bac.inTx = s.bac.inTx
    ∧ (enterListening s).bac.backoff = s.bac.backoff ∧ (enterListening s).bac.resetPending = s.bac.resetPending
    ∧ (enterListening s).bac.idleTime = s.bac.idleTime ∧ (enterListening s).spc = s.spc ∧ (enterListening s).cs = s.cs
    ∧ (enterListening s).hpu = s.hpu ∧ (enterListening s).acu.joinScan = s.acu.joinScan
    ∧ (enterListening s).acu.leaveScan = s.acu.leaveScan
    ∧ (enterListening s).acu.refusalPending = s.acu.refusalPending ∧ (enterListening s).acu.drain = s.acu.drain
    ∧ (enterListening s).pending = s.pending
    ∧ (enterListening s).pins = s.pins := by
  simp [enterListening]

@[simp] theorem busOn_frame (s : State) :
    (busOn s).stu = s.stu ∧ (busOn s).ru = s.ru ∧ (busOn s).mu = s.mu ∧ (busOn s).rcu = s.rcu ∧ (busOn s).hc = s.hc
    ∧ (busOn s).bac.inbound = s.bac.inbound ∧ (busOn s).bac.holdItem = s.bac.holdItem
    ∧ (busOn s).bac.rosterItem = s.bac.rosterItem ∧ (busOn s).bac.scanItems = s.bac.scanItems
    ∧ (busOn s).bac.inTx = s.bac.inTx ∧ (busOn s).bac.busyMark = s.bac.busyMark
    ∧ (busOn s).bac.backoff = s.bac.backoff ∧ (busOn s).bac.resetPending = s.bac.resetPending ∧ (busOn s).spc = s.spc
    ∧ (busOn s).cs = s.cs ∧ (busOn s).hpu = s.hpu ∧ (busOn s).acu = s.acu ∧ (busOn s).pending = s.pending
    ∧ (busOn s).pins = s.pins := by
  simp only [busOn]
  (repeat' split) <;> simp

@[simp] theorem configurationDone_frame (s : State) :
    (configurationDone s).stu.gateHigh = s.stu.gateHigh ∧ (configurationDone s).stu.faultSeen = s.stu.faultSeen
    ∧ (configurationDone s).stu.guard = s.stu.guard ∧ (configurationDone s).stu.take = s.stu.take
    ∧ (configurationDone s).stu.index = s.stu.index ∧ (configurationDone s).stu.formed = s.stu.formed
    ∧ (configurationDone s).stu.stallFlag = s.stu.stallFlag ∧ (configurationDone s).stu.soloMade = s.stu.soloMade
    ∧ (configurationDone s).stu.time = s.stu.time ∧ (configurationDone s).stu.boundaryTime = s.stu.boundaryTime
    ∧ (configurationDone s).stu.startSerial = s.stu.startSerial ∧ (configurationDone s).ru = s.ru
    ∧ (configurationDone s).mu = s.mu ∧ (configurationDone s).rcu = s.rcu
    ∧ (configurationDone s).hc.backlogReason = s.hc.backlogReason
    ∧ (configurationDone s).hc.freezeReason = s.hc.freezeReason ∧ (configurationDone s).hc.lastSent = s.hc.lastSent
    ∧ (configurationDone s).bac.inbound = s.bac.inbound ∧ (configurationDone s).bac.rosterItem = s.bac.rosterItem
    ∧ (configurationDone s).bac.scanItems = s.bac.scanItems ∧ (configurationDone s).bac.inTx = s.bac.inTx
    ∧ (configurationDone s).bac.backoff = s.bac.backoff ∧ (configurationDone s).bac.resetPending = s.bac.resetPending
    ∧ (configurationDone s).spc = s.spc ∧ (configurationDone s).cs = s.cs ∧ (configurationDone s).hpu = s.hpu
    ∧ (configurationDone s).acu.joinScan = s.acu.joinScan ∧ (configurationDone s).acu.leaveScan = s.acu.leaveScan
    ∧ (configurationDone s).acu.refusalPending = s.acu.refusalPending ∧ (configurationDone s).acu.drain = s.acu.drain
    ∧ (configurationDone s).pending = s.pending
    ∧ (configurationDone s).pins = s.pins := by
  simp only [configurationDone]
  (repeat' split) <;> simp

@[simp] theorem commitWritten_frame (s : State) :
    (commitWritten s).stu = s.stu ∧ (commitWritten s).ru = s.ru ∧ (commitWritten s).mu = s.mu
    ∧ (commitWritten s).rcu = s.rcu ∧ (commitWritten s).hc = s.hc ∧ (commitWritten s).bac = s.bac
    ∧ (commitWritten s).spc = s.spc ∧ (commitWritten s).cs.written = s.cs.written
    ∧ (commitWritten s).cs.selector = s.cs.selector ∧ (commitWritten s).cs.cfgsrc = s.cs.cfgsrc
    ∧ (commitWritten s).cs.eeprom = s.cs.eeprom
    ∧ (commitWritten s).hpu = s.hpu ∧ (commitWritten s).acu = s.acu ∧ (commitWritten s).pending = s.pending
    ∧ (commitWritten s).pins = s.pins := by
  simp [commitWritten]

@[simp] theorem refuseJoin_frame (reason : RefusalReason) (s : State) :
    (refuseJoin reason s).stu.gateHigh = s.stu.gateHigh ∧ (refuseJoin reason s).stu.faultSeen = s.stu.faultSeen
    ∧ (refuseJoin reason s).stu.index = s.stu.index ∧ (refuseJoin reason s).stu.formed = s.stu.formed
    ∧ (refuseJoin reason s).stu.solo = s.stu.solo ∧ (refuseJoin reason s).stu.soloMade = s.stu.soloMade
    ∧ (refuseJoin reason s).stu.time = s.stu.time ∧ (refuseJoin reason s).stu.boundaryTime = s.stu.boundaryTime
    ∧ (refuseJoin reason s).stu.startSerial = s.stu.startSerial ∧ (refuseJoin reason s).ru.selector = s.ru.selector
    ∧ (refuseJoin reason s).mu.suspended = s.mu.suspended ∧ (refuseJoin reason s).mu.selector = s.mu.selector
    ∧ (refuseJoin reason s).rcu.projFirst = s.rcu.projFirst ∧ (refuseJoin reason s).rcu.projCount = s.rcu.projCount
    ∧ (refuseJoin reason s).hc.freezeReason = s.hc.freezeReason ∧ (refuseJoin reason s).hc.lastSent = s.hc.lastSent
    ∧ (refuseJoin reason s).bac.line = s.bac.line ∧ (refuseJoin reason s).bac.receiver = s.bac.receiver
    ∧ (refuseJoin reason s).bac.inbound = s.bac.inbound ∧ (refuseJoin reason s).bac.scanItems = s.bac.scanItems
    ∧ (refuseJoin reason s).bac.inTx = s.bac.inTx ∧ (refuseJoin reason s).bac.backoff = s.bac.backoff
    ∧ (refuseJoin reason s).bac.resetPending = s.bac.resetPending
    ∧ (refuseJoin reason s).bac.idleTime = s.bac.idleTime ∧ (refuseJoin reason s).spc = s.spc
    ∧ (refuseJoin reason s).cs = s.cs ∧ (refuseJoin reason s).hpu.transaction = s.hpu.transaction
    ∧ (refuseJoin reason s).hpu.mask = s.hpu.mask ∧ (refuseJoin reason s).hpu.result = s.hpu.result
    ∧ (refuseJoin reason s).hpu.lastCode = s.hpu.lastCode ∧ (refuseJoin reason s).hpu.statSel = s.hpu.statSel
    ∧ (refuseJoin reason s).hpu.statMode = s.hpu.statMode ∧ (refuseJoin reason s).hpu.memberCopy = s.hpu.memberCopy
    ∧ (refuseJoin reason s).hpu.mergeCopy = s.hpu.mergeCopy ∧ (refuseJoin reason s).hpu.readWord = s.hpu.readWord
    ∧ (refuseJoin reason s).hpu.resetnLow = s.hpu.resetnLow ∧ (refuseJoin reason s).pending = s.pending
    ∧ (refuseJoin reason s).pins = s.pins := by
  simp [refuseJoin]

@[simp] theorem restartListen_frame (s : State) :
    (restartListen s).stu = s.stu ∧ (restartListen s).ru = s.ru ∧ (restartListen s).mu = s.mu
    ∧ (restartListen s).rcu = s.rcu ∧ (restartListen s).hc = s.hc ∧ (restartListen s).bac = s.bac
    ∧ (restartListen s).spc = s.spc ∧ (restartListen s).cs = s.cs ∧ (restartListen s).hpu = s.hpu
    ∧ (restartListen s).acu.state = s.acu.state ∧ (restartListen s).acu.joinScan = s.acu.joinScan
    ∧ (restartListen s).acu.leaveScan = s.acu.leaveScan ∧ (restartListen s).acu.admission = s.acu.admission
    ∧ (restartListen s).acu.matchingSeen = s.acu.matchingSeen
    ∧ (restartListen s).acu.mismatchingSeen = s.acu.mismatchingSeen
    ∧ (restartListen s).acu.refusalPending = s.acu.refusalPending ∧ (restartListen s).acu.drain = s.acu.drain
    ∧ (restartListen s).acu.reason = s.acu.reason ∧ (restartListen s).pending = s.pending
    ∧ (restartListen s).pins = s.pins := by
  simp only [restartListen]
  (repeat' split) <;> simp

end Sys2Proof.Machine
end

