-- ==== Sys2Proof/Laws/CommandFrames.lean ====
section
/-! SUPPORT. What each command, and each operation of one family, leaves as it was: one lemma for each. -/
namespace Sys2Proof.Machine

@[simp] theorem resetnReleaseEffect_frame (s : State) :
    (resetnReleaseEffect s).stu = s.stu ∧ (resetnReleaseEffect s).ru = s.ru ∧ (resetnReleaseEffect s).mu = s.mu
    ∧ (resetnReleaseEffect s).rcu = s.rcu ∧ (resetnReleaseEffect s).hc = s.hc ∧ (resetnReleaseEffect s).bac = s.bac
    ∧ (resetnReleaseEffect s).spc = s.spc ∧ (resetnReleaseEffect s).cs = s.cs
    ∧ (resetnReleaseEffect s).hpu.transaction = s.hpu.transaction ∧ (resetnReleaseEffect s).hpu.events = s.hpu.events
    ∧ (resetnReleaseEffect s).hpu.mask = s.hpu.mask ∧ (resetnReleaseEffect s).hpu.result = s.hpu.result
    ∧ (resetnReleaseEffect s).hpu.lastCode = s.hpu.lastCode ∧ (resetnReleaseEffect s).hpu.counters = s.hpu.counters
    ∧ (resetnReleaseEffect s).hpu.statSel = s.hpu.statSel ∧ (resetnReleaseEffect s).hpu.statMode = s.hpu.statMode
    ∧ (resetnReleaseEffect s).hpu.memberCopy = s.hpu.memberCopy
    ∧ (resetnReleaseEffect s).hpu.mergeCopy = s.hpu.mergeCopy ∧ (resetnReleaseEffect s).hpu.readWord = s.hpu.readWord
    ∧ (resetnReleaseEffect s).acu = s.acu ∧ (resetnReleaseEffect s).pending = s.pending
    ∧ (resetnReleaseEffect s).pins = s.pins := by
  simp [resetnReleaseEffect]

@[simp] theorem guardInReleased_frame (s : State) :
    (guardInReleased s).stu.guard = s.stu.guard ∧ (guardInReleased s).stu.take = s.stu.take
    ∧ (guardInReleased s).stu.index = s.stu.index ∧ (guardInReleased s).stu.period = s.stu.period
    ∧ (guardInReleased s).stu.formed = s.stu.formed ∧ (guardInReleased s).stu.stallFlag = s.stu.stallFlag
    ∧ (guardInReleased s).stu.solo = s.stu.solo ∧ (guardInReleased s).stu.soloMade = s.stu.soloMade
    ∧ (guardInReleased s).stu.time = s.stu.time ∧ (guardInReleased s).stu.boundaryTime = s.stu.boundaryTime
    ∧ (guardInReleased s).stu.startSerial = s.stu.startSerial ∧ (guardInReleased s).ru = s.ru
    ∧ (guardInReleased s).mu = s.mu ∧ (guardInReleased s).rcu = s.rcu
    ∧ (guardInReleased s).hc.backlogReason = s.hc.backlogReason
    ∧ (guardInReleased s).hc.freezeReason = s.hc.freezeReason ∧ (guardInReleased s).hc.lastSent = s.hc.lastSent
    ∧ (guardInReleased s).bac.line = s.bac.line ∧ (guardInReleased s).bac.receiver = s.bac.receiver
    ∧ (guardInReleased s).bac.inbound = s.bac.inbound ∧ (guardInReleased s).bac.rosterItem = s.bac.rosterItem
    ∧ (guardInReleased s).bac.scanItems = s.bac.scanItems ∧ (guardInReleased s).bac.inTx = s.bac.inTx
    ∧ (guardInReleased s).bac.backoff = s.bac.backoff ∧ (guardInReleased s).bac.resetPending = s.bac.resetPending
    ∧ (guardInReleased s).bac.idleTime = s.bac.idleTime ∧ (guardInReleased s).spc = s.spc
    ∧ (guardInReleased s).cs = s.cs ∧ (guardInReleased s).hpu = s.hpu ∧ (guardInReleased s).acu = s.acu
    ∧ (guardInReleased s).pending = s.pending
    ∧ (guardInReleased s).pins = s.pins := by
  simp only [guardInReleased]
  (repeat' split) <;> simp

@[simp] theorem guardInObserving_frame (s : State) :
    (guardInObserving s).stu.guard = s.stu.guard ∧ (guardInObserving s).stu.index = s.stu.index
    ∧ (guardInObserving s).stu.period = s.stu.period ∧ (guardInObserving s).stu.formed = s.stu.formed
    ∧ (guardInObserving s).stu.stallFlag = s.stu.stallFlag ∧ (guardInObserving s).stu.solo = s.stu.solo
    ∧ (guardInObserving s).stu.soloMade = s.stu.soloMade ∧ (guardInObserving s).stu.time = s.stu.time
    ∧ (guardInObserving s).stu.boundaryTime = s.stu.boundaryTime
    ∧ (guardInObserving s).stu.startSerial = s.stu.startSerial ∧ (guardInObserving s).ru = s.ru
    ∧ (guardInObserving s).mu = s.mu ∧ (guardInObserving s).rcu = s.rcu
    ∧ (guardInObserving s).hc.backlogReason = s.hc.backlogReason
    ∧ (guardInObserving s).hc.freezeReason = s.hc.freezeReason ∧ (guardInObserving s).hc.lastSent = s.hc.lastSent
    ∧ (guardInObserving s).bac.line = s.bac.line ∧ (guardInObserving s).bac.receiver = s.bac.receiver
    ∧ (guardInObserving s).bac.inbound = s.bac.inbound ∧ (guardInObserving s).bac.rosterItem = s.bac.rosterItem
    ∧ (guardInObserving s).bac.scanItems = s.bac.scanItems ∧ (guardInObserving s).bac.inTx = s.bac.inTx
    ∧ (guardInObserving s).bac.backoff = s.bac.backoff ∧ (guardInObserving s).bac.resetPending = s.bac.resetPending
    ∧ (guardInObserving s).bac.idleTime = s.bac.idleTime ∧ (guardInObserving s).spc = s.spc
    ∧ (guardInObserving s).cs = s.cs ∧ (guardInObserving s).hpu = s.hpu ∧ (guardInObserving s).acu = s.acu
    ∧ (guardInObserving s).pending = s.pending
    ∧ (guardInObserving s).pins = s.pins := by
  simp only [guardInObserving]
  (repeat' split) <;> simp

@[simp] theorem guardExpiryEffect_frame (s : State) :
    (guardExpiryEffect s).stu.index = s.stu.index ∧ (guardExpiryEffect s).stu.period = s.stu.period
    ∧ (guardExpiryEffect s).stu.formed = s.stu.formed ∧ (guardExpiryEffect s).stu.stallFlag = s.stu.stallFlag
    ∧ (guardExpiryEffect s).stu.solo = s.stu.solo ∧ (guardExpiryEffect s).stu.soloMade = s.stu.soloMade
    ∧ (guardExpiryEffect s).stu.time = s.stu.time ∧ (guardExpiryEffect s).stu.boundaryTime = s.stu.boundaryTime
    ∧ (guardExpiryEffect s).stu.startSerial = s.stu.startSerial ∧ (guardExpiryEffect s).ru = s.ru
    ∧ (guardExpiryEffect s).mu = s.mu ∧ (guardExpiryEffect s).rcu = s.rcu
    ∧ (guardExpiryEffect s).hc.backlogReason = s.hc.backlogReason
    ∧ (guardExpiryEffect s).hc.freezeReason = s.hc.freezeReason ∧ (guardExpiryEffect s).hc.lastSent = s.hc.lastSent
    ∧ (guardExpiryEffect s).bac.line = s.bac.line ∧ (guardExpiryEffect s).bac.receiver = s.bac.receiver
    ∧ (guardExpiryEffect s).bac.inbound = s.bac.inbound ∧ (guardExpiryEffect s).bac.rosterItem = s.bac.rosterItem
    ∧ (guardExpiryEffect s).bac.scanItems = s.bac.scanItems ∧ (guardExpiryEffect s).bac.inTx = s.bac.inTx
    ∧ (guardExpiryEffect s).bac.backoff = s.bac.backoff ∧ (guardExpiryEffect s).bac.resetPending = s.bac.resetPending
    ∧ (guardExpiryEffect s).bac.idleTime = s.bac.idleTime ∧ (guardExpiryEffect s).spc = s.spc
    ∧ (guardExpiryEffect s).cs = s.cs ∧ (guardExpiryEffect s).hpu = s.hpu ∧ (guardExpiryEffect s).acu = s.acu
    ∧ (guardExpiryEffect s).pending = s.pending
    ∧ (guardExpiryEffect s).pins = s.pins := by
  simp only [guardExpiryEffect]
  (repeat' split) <;> simp

@[simp] theorem stuBoundary_frame (s : State) :
    (stuBoundary s).stu.faultSeen = s.stu.faultSeen ∧ (stuBoundary s).stu.solo = s.stu.solo
    ∧ (stuBoundary s).stu.soloMade = s.stu.soloMade ∧ (stuBoundary s).stu.time = s.stu.time
    ∧ (stuBoundary s).ru = s.ru ∧ (stuBoundary s).mu = s.mu ∧ (stuBoundary s).rcu = s.rcu ∧ (stuBoundary s).hc = s.hc
    ∧ (stuBoundary s).bac = s.bac ∧ (stuBoundary s).spc = s.spc ∧ (stuBoundary s).cs = s.cs
    ∧ (stuBoundary s).hpu.transaction = s.hpu.transaction ∧ (stuBoundary s).hpu.events = s.hpu.events
    ∧ (stuBoundary s).hpu.mask = s.hpu.mask ∧ (stuBoundary s).hpu.result = s.hpu.result
    ∧ (stuBoundary s).hpu.lastCode = s.hpu.lastCode ∧ (stuBoundary s).hpu.statSel = s.hpu.statSel
    ∧ (stuBoundary s).hpu.statMode = s.hpu.statMode ∧ (stuBoundary s).hpu.memberCopy = s.hpu.memberCopy
    ∧ (stuBoundary s).hpu.mergeCopy = s.hpu.mergeCopy ∧ (stuBoundary s).hpu.readWord = s.hpu.readWord
    ∧ (stuBoundary s).hpu.resetnLow = s.hpu.resetnLow ∧ (stuBoundary s).acu = s.acu
    ∧ (stuBoundary s).pending = s.pending
    ∧ (stuBoundary s).pins = s.pins := by
  simp only [stuBoundary]
  (repeat' split) <;> simp

@[simp] theorem openEntry_frame (n : Scan) (expected : NodeSet) (s : State) :
    (openEntry n expected s).stu = s.stu ∧ (openEntry n expected s).ru = s.ru
    ∧ (openEntry n expected s).mu.suspended = s.mu.suspended ∧ (openEntry n expected s).mu.selector = s.mu.selector
    ∧ (openEntry n expected s).rcu = s.rcu ∧ (openEntry n expected s).hc = s.hc ∧ (openEntry n expected s).bac = s.bac
    ∧ (openEntry n expected s).spc = s.spc ∧ (openEntry n expected s).cs = s.cs ∧ (openEntry n expected s).hpu = s.hpu
    ∧ (openEntry n expected s).acu = s.acu ∧ (openEntry n expected s).pending = s.pending
    ∧ (openEntry n expected s).pins = s.pins := by
  simp only [openEntry]
  (repeat' split) <;> simp

@[simp] theorem closeAtDeadline_frame (n : Scan) (s : State) :
    (closeAtDeadline n s).stu.gateHigh = s.stu.gateHigh ∧ (closeAtDeadline n s).stu.faultSeen = s.stu.faultSeen
    ∧ (closeAtDeadline n s).stu.index = s.stu.index ∧ (closeAtDeadline n s).stu.formed = s.stu.formed
    ∧ (closeAtDeadline n s).stu.solo = s.stu.solo ∧ (closeAtDeadline n s).stu.soloMade = s.stu.soloMade
    ∧ (closeAtDeadline n s).stu.time = s.stu.time ∧ (closeAtDeadline n s).stu.boundaryTime = s.stu.boundaryTime
    ∧ (closeAtDeadline n s).stu.startSerial = s.stu.startSerial ∧ (closeAtDeadline n s).ru.selector = s.ru.selector
    ∧ (closeAtDeadline n s).mu.suspended = s.mu.suspended ∧ (closeAtDeadline n s).mu.selector = s.mu.selector
    ∧ (closeAtDeadline n s).rcu.projFirst = s.rcu.projFirst ∧ (closeAtDeadline n s).rcu.projCount = s.rcu.projCount
    ∧ (closeAtDeadline n s).hc.freezeReason = s.hc.freezeReason ∧ (closeAtDeadline n s).hc.lastSent = s.hc.lastSent
    ∧ (closeAtDeadline n s).bac.line = s.bac.line ∧ (closeAtDeadline n s).bac.receiver = s.bac.receiver
    ∧ (closeAtDeadline n s).bac.inbound = s.bac.inbound ∧ (closeAtDeadline n s).bac.scanItems = s.bac.scanItems
    ∧ (closeAtDeadline n s).bac.inTx = s.bac.inTx ∧ (closeAtDeadline n s).bac.backoff = s.bac.backoff
    ∧ (closeAtDeadline n s).bac.resetPending = s.bac.resetPending
    ∧ (closeAtDeadline n s).bac.idleTime = s.bac.idleTime ∧ (closeAtDeadline n s).spc = s.spc
    ∧ (closeAtDeadline n s).cs = s.cs ∧ (closeAtDeadline n s).hpu.transaction = s.hpu.transaction
    ∧ (closeAtDeadline n s).hpu.mask = s.hpu.mask ∧ (closeAtDeadline n s).hpu.result = s.hpu.result
    ∧ (closeAtDeadline n s).hpu.lastCode = s.hpu.lastCode ∧ (closeAtDeadline n s).hpu.statSel = s.hpu.statSel
    ∧ (closeAtDeadline n s).hpu.statMode = s.hpu.statMode ∧ (closeAtDeadline n s).hpu.memberCopy = s.hpu.memberCopy
    ∧ (closeAtDeadline n s).hpu.mergeCopy = s.hpu.mergeCopy ∧ (closeAtDeadline n s).hpu.readWord = s.hpu.readWord
    ∧ (closeAtDeadline n s).hpu.resetnLow = s.hpu.resetnLow ∧ (closeAtDeadline n s).acu.reason = s.acu.reason
    ∧ (closeAtDeadline n s).pending = s.pending
    ∧ (closeAtDeadline n s).pins = s.pins := by
  simp [closeAtDeadline]

@[simp] theorem openAtBoundary_frame (n : Scan) (s : State) :
    (openAtBoundary n s).stu = s.stu ∧ (openAtBoundary n s).ru = s.ru
    ∧ (openAtBoundary n s).mu.suspended = s.mu.suspended ∧ (openAtBoundary n s).mu.selector = s.mu.selector
    ∧ (openAtBoundary n s).rcu = s.rcu ∧ (openAtBoundary n s).hc = s.hc ∧ (openAtBoundary n s).bac = s.bac
    ∧ (openAtBoundary n s).spc = s.spc ∧ (openAtBoundary n s).cs = s.cs ∧ (openAtBoundary n s).hpu = s.hpu
    ∧ (openAtBoundary n s).acu = s.acu ∧ (openAtBoundary n s).pending = s.pending
    ∧ (openAtBoundary n s).pins = s.pins := by
  simp only [openAtBoundary]
  (repeat' split) <;> simp

@[simp] theorem muBoundary_frame (order : BoundaryOrder) (listening : Bool) (n : Scan) (s : State) :
    (muBoundary order listening n s).stu.gateHigh = s.stu.gateHigh
    ∧ (muBoundary order listening n s).stu.faultSeen = s.stu.faultSeen
    ∧ (muBoundary order listening n s).stu.index = s.stu.index
    ∧ (muBoundary order listening n s).stu.formed = s.stu.formed
    ∧ (muBoundary order listening n s).stu.solo = s.stu.solo
    ∧ (muBoundary order listening n s).stu.soloMade = s.stu.soloMade
    ∧ (muBoundary order listening n s).stu.time = s.stu.time
    ∧ (muBoundary order listening n s).stu.boundaryTime = s.stu.boundaryTime
    ∧ (muBoundary order listening n s).stu.startSerial = s.stu.startSerial
    ∧ (muBoundary order listening n s).ru.selector = s.ru.selector
    ∧ (muBoundary order listening n s).mu.suspended = s.mu.suspended
    ∧ (muBoundary order listening n s).mu.selector = s.mu.selector
    ∧ (muBoundary order listening n s).rcu.projFirst = s.rcu.projFirst
    ∧ (muBoundary order listening n s).rcu.projCount = s.rcu.projCount
    ∧ (muBoundary order listening n s).hc.freezeReason = s.hc.freezeReason
    ∧ (muBoundary order listening n s).hc.lastSent = s.hc.lastSent
    ∧ (muBoundary order listening n s).bac.line = s.bac.line
    ∧ (muBoundary order listening n s).bac.receiver = s.bac.receiver
    ∧ (muBoundary order listening n s).bac.inbound = s.bac.inbound
    ∧ (muBoundary order listening n s).bac.scanItems = s.bac.scanItems
    ∧ (muBoundary order listening n s).bac.inTx = s.bac.inTx
    ∧ (muBoundary order listening n s).bac.backoff = s.bac.backoff
    ∧ (muBoundary order listening n s).bac.resetPending = s.bac.resetPending
    ∧ (muBoundary order listening n s).bac.idleTime = s.bac.idleTime ∧ (muBoundary order listening n s).spc = s.spc
    ∧ (muBoundary order listening n s).cs = s.cs
    ∧ (muBoundary order listening n s).hpu.transaction = s.hpu.transaction
    ∧ (muBoundary order listening n s).hpu.mask = s.hpu.mask
    ∧ (muBoundary order listening n s).hpu.result = s.hpu.result
    ∧ (muBoundary order listening n s).hpu.lastCode = s.hpu.lastCode
    ∧ (muBoundary order listening n s).hpu.statSel = s.hpu.statSel
    ∧ (muBoundary order listening n s).hpu.statMode = s.hpu.statMode
    ∧ (muBoundary order listening n s).hpu.memberCopy = s.hpu.memberCopy
    ∧ (muBoundary order listening n s).hpu.mergeCopy = s.hpu.mergeCopy
    ∧ (muBoundary order listening n s).hpu.readWord = s.hpu.readWord
    ∧ (muBoundary order listening n s).hpu.resetnLow = s.hpu.resetnLow
    ∧ (muBoundary order listening n s).acu.reason = s.acu.reason
    ∧ (muBoundary order listening n s).pending = s.pending
    ∧ (muBoundary order listening n s).pins = s.pins := by
  simp only [muBoundary]
  (repeat' split) <;> simp

@[simp] theorem advancePeers_frame (n : Scan) (s : State) :
    (advancePeers n s).stu.gate = s.stu.gate ∧ (advancePeers n s).stu.gateHigh = s.stu.gateHigh
    ∧ (advancePeers n s).stu.faultSeen = s.stu.faultSeen ∧ (advancePeers n s).stu.guard = s.stu.guard
    ∧ (advancePeers n s).stu.take = s.stu.take ∧ (advancePeers n s).stu.index = s.stu.index
    ∧ (advancePeers n s).stu.period = s.stu.period ∧ (advancePeers n s).stu.formed = s.stu.formed
    ∧ (advancePeers n s).stu.stallFlag = s.stu.stallFlag ∧ (advancePeers n s).stu.solo = s.stu.solo
    ∧ (advancePeers n s).stu.soloMade = s.stu.soloMade ∧ (advancePeers n s).stu.time = s.stu.time
    ∧ (advancePeers n s).stu.boundaryTime = s.stu.boundaryTime
    ∧ (advancePeers n s).stu.startSerial = s.stu.startSerial ∧ (advancePeers n s).ru.selector = s.ru.selector
    ∧ (advancePeers n s).ru.reports = s.ru.reports ∧ (advancePeers n s).mu = s.mu ∧ (advancePeers n s).rcu = s.rcu
    ∧ (advancePeers n s).hc = s.hc ∧ (advancePeers n s).bac = s.bac ∧ (advancePeers n s).spc = s.spc
    ∧ (advancePeers n s).cs = s.cs ∧ (advancePeers n s).hpu.transaction = s.hpu.transaction
    ∧ (advancePeers n s).hpu.mask = s.hpu.mask ∧ (advancePeers n s).hpu.result = s.hpu.result
    ∧ (advancePeers n s).hpu.lastCode = s.hpu.lastCode ∧ (advancePeers n s).hpu.counters = s.hpu.counters
    ∧ (advancePeers n s).hpu.statSel = s.hpu.statSel ∧ (advancePeers n s).hpu.statMode = s.hpu.statMode
    ∧ (advancePeers n s).hpu.memberCopy = s.hpu.memberCopy ∧ (advancePeers n s).hpu.mergeCopy = s.hpu.mergeCopy
    ∧ (advancePeers n s).hpu.readWord = s.hpu.readWord ∧ (advancePeers n s).hpu.resetnLow = s.hpu.resetnLow
    ∧ (advancePeers n s).acu = s.acu ∧ (advancePeers n s).pending = s.pending
    ∧ (advancePeers n s).pins = s.pins := by
  simp only [advancePeers]
  simp

@[simp] theorem ruTakesBoundary_frame (n : Scan) (s : State) :
    (ruTakesBoundary n s).stu.gate = s.stu.gate ∧ (ruTakesBoundary n s).stu.gateHigh = s.stu.gateHigh
    ∧ (ruTakesBoundary n s).stu.faultSeen = s.stu.faultSeen ∧ (ruTakesBoundary n s).stu.guard = s.stu.guard
    ∧ (ruTakesBoundary n s).stu.take = s.stu.take ∧ (ruTakesBoundary n s).stu.index = s.stu.index
    ∧ (ruTakesBoundary n s).stu.period = s.stu.period ∧ (ruTakesBoundary n s).stu.formed = s.stu.formed
    ∧ (ruTakesBoundary n s).stu.stallFlag = s.stu.stallFlag ∧ (ruTakesBoundary n s).stu.solo = s.stu.solo
    ∧ (ruTakesBoundary n s).stu.soloMade = s.stu.soloMade ∧ (ruTakesBoundary n s).stu.time = s.stu.time
    ∧ (ruTakesBoundary n s).stu.boundaryTime = s.stu.boundaryTime
    ∧ (ruTakesBoundary n s).stu.startSerial = s.stu.startSerial ∧ (ruTakesBoundary n s).ru.selector = s.ru.selector
    ∧ (ruTakesBoundary n s).ru.reports = s.ru.reports ∧ (ruTakesBoundary n s).mu = s.mu
    ∧ (ruTakesBoundary n s).rcu = s.rcu ∧ (ruTakesBoundary n s).hc = s.hc
    ∧ (ruTakesBoundary n s).bac.line = s.bac.line ∧ (ruTakesBoundary n s).bac.receiver = s.bac.receiver
    ∧ (ruTakesBoundary n s).bac.inbound = s.bac.inbound ∧ (ruTakesBoundary n s).bac.holdItem = s.bac.holdItem
    ∧ (ruTakesBoundary n s).bac.scanItems = s.bac.scanItems ∧ (ruTakesBoundary n s).bac.inTx = s.bac.inTx
    ∧ (ruTakesBoundary n s).bac.backoff = s.bac.backoff ∧ (ruTakesBoundary n s).bac.resetPending = s.bac.resetPending
    ∧ (ruTakesBoundary n s).bac.idleTime = s.bac.idleTime ∧ (ruTakesBoundary n s).spc = s.spc
    ∧ (ruTakesBoundary n s).cs = s.cs ∧ (ruTakesBoundary n s).hpu.transaction = s.hpu.transaction
    ∧ (ruTakesBoundary n s).hpu.mask = s.hpu.mask ∧ (ruTakesBoundary n s).hpu.result = s.hpu.result
    ∧ (ruTakesBoundary n s).hpu.lastCode = s.hpu.lastCode ∧ (ruTakesBoundary n s).hpu.counters = s.hpu.counters
    ∧ (ruTakesBoundary n s).hpu.statSel = s.hpu.statSel ∧ (ruTakesBoundary n s).hpu.statMode = s.hpu.statMode
    ∧ (ruTakesBoundary n s).hpu.memberCopy = s.hpu.memberCopy ∧ (ruTakesBoundary n s).hpu.mergeCopy = s.hpu.mergeCopy
    ∧ (ruTakesBoundary n s).hpu.readWord = s.hpu.readWord ∧ (ruTakesBoundary n s).hpu.resetnLow = s.hpu.resetnLow
    ∧ (ruTakesBoundary n s).acu = s.acu ∧ (ruTakesBoundary n s).pending = s.pending
    ∧ (ruTakesBoundary n s).pins = s.pins := by
  simp only [ruTakesBoundary]
  (repeat' split) <;> simp

@[simp] theorem ruBoundary_frame (order : BoundaryOrder) (listening : Bool) (n : Scan) (s : State) :
    (ruBoundary order listening n s).stu.gate = s.stu.gate
    ∧ (ruBoundary order listening n s).stu.gateHigh = s.stu.gateHigh
    ∧ (ruBoundary order listening n s).stu.faultSeen = s.stu.faultSeen
    ∧ (ruBoundary order listening n s).stu.guard = s.stu.guard
    ∧ (ruBoundary order listening n s).stu.take = s.stu.take
    ∧ (ruBoundary order listening n s).stu.index = s.stu.index
    ∧ (ruBoundary order listening n s).stu.period = s.stu.period
    ∧ (ruBoundary order listening n s).stu.formed = s.stu.formed
    ∧ (ruBoundary order listening n s).stu.stallFlag = s.stu.stallFlag
    ∧ (ruBoundary order listening n s).stu.solo = s.stu.solo
    ∧ (ruBoundary order listening n s).stu.soloMade = s.stu.soloMade
    ∧ (ruBoundary order listening n s).stu.time = s.stu.time
    ∧ (ruBoundary order listening n s).stu.boundaryTime = s.stu.boundaryTime
    ∧ (ruBoundary order listening n s).stu.startSerial = s.stu.startSerial
    ∧ (ruBoundary order listening n s).ru.selector = s.ru.selector ∧ (ruBoundary order listening n s).mu = s.mu
    ∧ (ruBoundary order listening n s).rcu = s.rcu ∧ (ruBoundary order listening n s).hc = s.hc
    ∧ (ruBoundary order listening n s).bac.line = s.bac.line
    ∧ (ruBoundary order listening n s).bac.receiver = s.bac.receiver
    ∧ (ruBoundary order listening n s).bac.inbound = s.bac.inbound
    ∧ (ruBoundary order listening n s).bac.holdItem = s.bac.holdItem
    ∧ (ruBoundary order listening n s).bac.scanItems = s.bac.scanItems
    ∧ (ruBoundary order listening n s).bac.inTx = s.bac.inTx
    ∧ (ruBoundary order listening n s).bac.backoff = s.bac.backoff
    ∧ (ruBoundary order listening n s).bac.resetPending = s.bac.resetPending
    ∧ (ruBoundary order listening n s).bac.idleTime = s.bac.idleTime ∧ (ruBoundary order listening n s).spc = s.spc
    ∧ (ruBoundary order listening n s).cs = s.cs
    ∧ (ruBoundary order listening n s).hpu.transaction = s.hpu.transaction
    ∧ (ruBoundary order listening n s).hpu.mask = s.hpu.mask
    ∧ (ruBoundary order listening n s).hpu.result = s.hpu.result
    ∧ (ruBoundary order listening n s).hpu.lastCode = s.hpu.lastCode
    ∧ (ruBoundary order listening n s).hpu.counters = s.hpu.counters
    ∧ (ruBoundary order listening n s).hpu.statSel = s.hpu.statSel
    ∧ (ruBoundary order listening n s).hpu.statMode = s.hpu.statMode
    ∧ (ruBoundary order listening n s).hpu.memberCopy = s.hpu.memberCopy
    ∧ (ruBoundary order listening n s).hpu.mergeCopy = s.hpu.mergeCopy
    ∧ (ruBoundary order listening n s).hpu.readWord = s.hpu.readWord
    ∧ (ruBoundary order listening n s).hpu.resetnLow = s.hpu.resetnLow ∧ (ruBoundary order listening n s).acu = s.acu
    ∧ (ruBoundary order listening n s).pending = s.pending ∧ (ruBoundary order listening n s).pins = s.pins := by
  simp only [ruBoundary]
  (repeat' split) <;> simp

@[simp] theorem enterByRoster_frame (r : Roster) (s : State) :
    (enterByRoster r s).stu.gateHigh = s.stu.gateHigh ∧ (enterByRoster r s).stu.faultSeen = s.stu.faultSeen
    ∧ (enterByRoster r s).stu.guard = s.stu.guard ∧ (enterByRoster r s).stu.period = s.stu.period
    ∧ (enterByRoster r s).stu.formed = s.stu.formed ∧ (enterByRoster r s).stu.stallFlag = s.stu.stallFlag
    ∧ (enterByRoster r s).stu.solo = s.stu.solo ∧ (enterByRoster r s).stu.soloMade = s.stu.soloMade
    ∧ (enterByRoster r s).stu.time = s.stu.time ∧ (enterByRoster r s).stu.boundaryTime = s.stu.boundaryTime
    ∧ (enterByRoster r s).stu.startSerial = s.stu.startSerial ∧ (enterByRoster r s).ru.selector = s.ru.selector
    ∧ (enterByRoster r s).ru.reports = s.ru.reports ∧ (enterByRoster r s).mu = s.mu ∧ (enterByRoster r s).rcu = s.rcu ∧ (enterByRoster r s).hc = s.hc
    ∧ (enterByRoster r s).bac.line = s.bac.line ∧ (enterByRoster r s).bac.receiver = s.bac.receiver
    ∧ (enterByRoster r s).bac.inbound = s.bac.inbound ∧ (enterByRoster r s).bac.holdItem = s.bac.holdItem
    ∧ (enterByRoster r s).bac.scanItems = s.bac.scanItems ∧ (enterByRoster r s).bac.inTx = s.bac.inTx
    ∧ (enterByRoster r s).bac.backoff = s.bac.backoff ∧ (enterByRoster r s).bac.resetPending = s.bac.resetPending
    ∧ (enterByRoster r s).bac.idleTime = s.bac.idleTime ∧ (enterByRoster r s).spc = s.spc ∧ (enterByRoster r s).cs = s.cs
    ∧ (enterByRoster r s).hpu = s.hpu ∧ (enterByRoster r s).acu.leaveScan = s.acu.leaveScan
    ∧ (enterByRoster r s).acu.refusalPending = s.acu.refusalPending ∧ (enterByRoster r s).acu.drain = s.acu.drain
    ∧ (enterByRoster r s).acu.reason = s.acu.reason ∧ (enterByRoster r s).pending = s.pending
    ∧ (enterByRoster r s).pins = s.pins := by
  simp [enterByRoster]

@[simp] theorem acuListening_frame (s : State) :
    (acuListening s).stu.gateHigh = s.stu.gateHigh ∧ (acuListening s).stu.faultSeen = s.stu.faultSeen
    ∧ (acuListening s).stu.guard = s.stu.guard ∧ (acuListening s).stu.period = s.stu.period
    ∧ (acuListening s).stu.formed = s.stu.formed ∧ (acuListening s).stu.stallFlag = s.stu.stallFlag
    ∧ (acuListening s).stu.solo = s.stu.solo ∧ (acuListening s).stu.soloMade = s.stu.soloMade
    ∧ (acuListening s).stu.time = s.stu.time ∧ (acuListening s).stu.boundaryTime = s.stu.boundaryTime
    ∧ (acuListening s).stu.startSerial = s.stu.startSerial ∧ (acuListening s).ru.selector = s.ru.selector
    ∧ (acuListening s).ru.reports = s.ru.reports ∧ (acuListening s).mu = s.mu ∧ (acuListening s).rcu = s.rcu
    ∧ (acuListening s).hc = s.hc ∧ (acuListening s).bac.line = s.bac.line
    ∧ (acuListening s).bac.receiver = s.bac.receiver ∧ (acuListening s).bac.inbound = s.bac.inbound
    ∧ (acuListening s).bac.holdItem = s.bac.holdItem ∧ (acuListening s).bac.scanItems = s.bac.scanItems
    ∧ (acuListening s).bac.inTx = s.bac.inTx ∧ (acuListening s).bac.backoff = s.bac.backoff
    ∧ (acuListening s).bac.resetPending = s.bac.resetPending ∧ (acuListening s).bac.idleTime = s.bac.idleTime
    ∧ (acuListening s).spc = s.spc ∧ (acuListening s).cs = s.cs ∧ (acuListening s).hpu = s.hpu
    ∧ (acuListening s).acu.leaveScan = s.acu.leaveScan ∧ (acuListening s).acu.refusalPending = s.acu.refusalPending
    ∧ (acuListening s).acu.drain = s.acu.drain ∧ (acuListening s).acu.reason = s.acu.reason
    ∧ (acuListening s).pending = s.pending
    ∧ (acuListening s).pins = s.pins := by
  simp only [acuListening]
  (repeat' split) <;> simp

@[simp] theorem becomeMember_frame (j : Scan) (s : State) :
    (becomeMember j s).stu.gateHigh = s.stu.gateHigh ∧ (becomeMember j s).stu.faultSeen = s.stu.faultSeen
    ∧ (becomeMember j s).stu.guard = s.stu.guard ∧ (becomeMember j s).stu.take = s.stu.take
    ∧ (becomeMember j s).stu.index = s.stu.index ∧ (becomeMember j s).stu.period = s.stu.period
    ∧ (becomeMember j s).stu.formed = s.stu.formed ∧ (becomeMember j s).stu.stallFlag = s.stu.stallFlag
    ∧ (becomeMember j s).stu.solo = s.stu.solo ∧ (becomeMember j s).stu.soloMade = s.stu.soloMade
    ∧ (becomeMember j s).stu.time = s.stu.time ∧ (becomeMember j s).stu.boundaryTime = s.stu.boundaryTime
    ∧ (becomeMember j s).stu.startSerial = s.stu.startSerial ∧ (becomeMember j s).ru.selector = s.ru.selector
    ∧ (becomeMember j s).ru.reports = s.ru.reports ∧ (becomeMember j s).mu = s.mu ∧ (becomeMember j s).rcu = s.rcu
    ∧ (becomeMember j s).hc = s.hc ∧ (becomeMember j s).bac = s.bac ∧ (becomeMember j s).spc = s.spc
    ∧ (becomeMember j s).cs = s.cs ∧ (becomeMember j s).hpu.transaction = s.hpu.transaction
    ∧ (becomeMember j s).hpu.mask = s.hpu.mask ∧ (becomeMember j s).hpu.result = s.hpu.result
    ∧ (becomeMember j s).hpu.lastCode = s.hpu.lastCode ∧ (becomeMember j s).hpu.counters = s.hpu.counters
    ∧ (becomeMember j s).hpu.statSel = s.hpu.statSel ∧ (becomeMember j s).hpu.statMode = s.hpu.statMode
    ∧ (becomeMember j s).hpu.memberCopy = s.hpu.memberCopy ∧ (becomeMember j s).hpu.mergeCopy = s.hpu.mergeCopy
    ∧ (becomeMember j s).hpu.readWord = s.hpu.readWord ∧ (becomeMember j s).hpu.resetnLow = s.hpu.resetnLow
    ∧ (becomeMember j s).acu.leaveScan = s.acu.leaveScan ∧ (becomeMember j s).acu.listen = s.acu.listen
    ∧ (becomeMember j s).acu.admission = s.acu.admission ∧ (becomeMember j s).acu.matchingSeen = s.acu.matchingSeen
    ∧ (becomeMember j s).acu.mismatchingSeen = s.acu.mismatchingSeen
    ∧ (becomeMember j s).acu.refusalPending = s.acu.refusalPending ∧ (becomeMember j s).acu.drain = s.acu.drain
    ∧ (becomeMember j s).acu.reason = s.acu.reason ∧ (becomeMember j s).pending = s.pending
    ∧ (becomeMember j s).pins = s.pins := by
  simp [becomeMember]

@[simp] theorem refuseAtBoundary_frame (guardFirst : Bool) (s : State) :
    (refuseAtBoundary guardFirst s).stu.index = s.stu.index
    ∧ (refuseAtBoundary guardFirst s).stu.formed = s.stu.formed
    ∧ (refuseAtBoundary guardFirst s).stu.soloMade = s.stu.soloMade
    ∧ (refuseAtBoundary guardFirst s).stu.time = s.stu.time
    ∧ (refuseAtBoundary guardFirst s).stu.boundaryTime = s.stu.boundaryTime
    ∧ (refuseAtBoundary guardFirst s).stu.startSerial = s.stu.startSerial
    ∧ (refuseAtBoundary guardFirst s).ru.selector = s.ru.selector
    ∧ (refuseAtBoundary guardFirst s).mu.suspended = s.mu.suspended
    ∧ (refuseAtBoundary guardFirst s).mu.selector = s.mu.selector
    ∧ (refuseAtBoundary guardFirst s).rcu.projFirst = s.rcu.projFirst
    ∧ (refuseAtBoundary guardFirst s).rcu.projCount = s.rcu.projCount
    ∧ (refuseAtBoundary guardFirst s).hc.freezeReason = s.hc.freezeReason
    ∧ (refuseAtBoundary guardFirst s).hc.lastSent = s.hc.lastSent
    ∧ (refuseAtBoundary guardFirst s).bac.line = s.bac.line
    ∧ (refuseAtBoundary guardFirst s).bac.receiver = s.bac.receiver
    ∧ (refuseAtBoundary guardFirst s).bac.inbound = s.bac.inbound
    ∧ (refuseAtBoundary guardFirst s).bac.scanItems = s.bac.scanItems
    ∧ (refuseAtBoundary guardFirst s).bac.inTx = s.bac.inTx
    ∧ (refuseAtBoundary guardFirst s).bac.backoff = s.bac.backoff
    ∧ (refuseAtBoundary guardFirst s).bac.resetPending = s.bac.resetPending
    ∧ (refuseAtBoundary guardFirst s).bac.idleTime = s.bac.idleTime
    ∧ (refuseAtBoundary guardFirst s).spc.capture = s.spc.capture
    ∧ (refuseAtBoundary guardFirst s).spc.tag = s.spc.tag ∧ (refuseAtBoundary guardFirst s).spc.ready = s.spc.ready
    ∧ (refuseAtBoundary guardFirst s).spc.raw = s.spc.raw ∧ (refuseAtBoundary guardFirst s).spc.table = s.spc.table
    ∧ (refuseAtBoundary guardFirst s).spc.elapsed = s.spc.elapsed ∧ (refuseAtBoundary guardFirst s).cs = s.cs
    ∧ (refuseAtBoundary guardFirst s).hpu.transaction = s.hpu.transaction
    ∧ (refuseAtBoundary guardFirst s).hpu.mask = s.hpu.mask
    ∧ (refuseAtBoundary guardFirst s).hpu.result = s.hpu.result
    ∧ (refuseAtBoundary guardFirst s).hpu.lastCode = s.hpu.lastCode
    ∧ (refuseAtBoundary guardFirst s).hpu.statSel = s.hpu.statSel
    ∧ (refuseAtBoundary guardFirst s).hpu.statMode = s.hpu.statMode
    ∧ (refuseAtBoundary guardFirst s).hpu.memberCopy = s.hpu.memberCopy
    ∧ (refuseAtBoundary guardFirst s).hpu.mergeCopy = s.hpu.mergeCopy
    ∧ (refuseAtBoundary guardFirst s).hpu.readWord = s.hpu.readWord
    ∧ (refuseAtBoundary guardFirst s).hpu.resetnLow = s.hpu.resetnLow
    ∧ (refuseAtBoundary guardFirst s).pending = s.pending ∧ (refuseAtBoundary guardFirst s).pins = s.pins
    ∧ (refuseAtBoundary guardFirst s).spc.sdata = s.spc.sdata
    ∧ (refuseAtBoundary guardFirst s).spc.clocked = s.spc.clocked
    ∧ (refuseAtBoundary guardFirst s).spc.clockTime = s.spc.clockTime := by
  simp only [refuseAtBoundary]
  (repeat' split) <;> simp

@[simp] theorem acuJoining_frame (guardFirst : Bool) (n : Scan) (s : State) :
    (acuJoining guardFirst n s).stu.index = s.stu.index ∧ (acuJoining guardFirst n s).stu.formed = s.stu.formed
    ∧ (acuJoining guardFirst n s).stu.soloMade = s.stu.soloMade ∧ (acuJoining guardFirst n s).stu.time = s.stu.time
    ∧ (acuJoining guardFirst n s).stu.boundaryTime = s.stu.boundaryTime
    ∧ (acuJoining guardFirst n s).stu.startSerial = s.stu.startSerial
    ∧ (acuJoining guardFirst n s).ru.selector = s.ru.selector
    ∧ (acuJoining guardFirst n s).mu.suspended = s.mu.suspended
    ∧ (acuJoining guardFirst n s).mu.selector = s.mu.selector
    ∧ (acuJoining guardFirst n s).rcu.projFirst = s.rcu.projFirst
    ∧ (acuJoining guardFirst n s).rcu.projCount = s.rcu.projCount
    ∧ (acuJoining guardFirst n s).hc.freezeReason = s.hc.freezeReason
    ∧ (acuJoining guardFirst n s).hc.lastSent = s.hc.lastSent ∧ (acuJoining guardFirst n s).bac.line = s.bac.line
    ∧ (acuJoining guardFirst n s).bac.receiver = s.bac.receiver
    ∧ (acuJoining guardFirst n s).bac.inbound = s.bac.inbound
    ∧ (acuJoining guardFirst n s).bac.scanItems = s.bac.scanItems ∧ (acuJoining guardFirst n s).bac.inTx = s.bac.inTx
    ∧ (acuJoining guardFirst n s).bac.backoff = s.bac.backoff
    ∧ (acuJoining guardFirst n s).bac.resetPending = s.bac.resetPending
    ∧ (acuJoining guardFirst n s).bac.idleTime = s.bac.idleTime
    ∧ (acuJoining guardFirst n s).spc.capture = s.spc.capture ∧ (acuJoining guardFirst n s).spc.tag = s.spc.tag
    ∧ (acuJoining guardFirst n s).spc.ready = s.spc.ready ∧ (acuJoining guardFirst n s).spc.raw = s.spc.raw
    ∧ (acuJoining guardFirst n s).spc.table = s.spc.table ∧ (acuJoining guardFirst n s).spc.elapsed = s.spc.elapsed
    ∧ (acuJoining guardFirst n s).cs = s.cs ∧ (acuJoining guardFirst n s).hpu.transaction = s.hpu.transaction
    ∧ (acuJoining guardFirst n s).hpu.mask = s.hpu.mask ∧ (acuJoining guardFirst n s).hpu.result = s.hpu.result
    ∧ (acuJoining guardFirst n s).hpu.lastCode = s.hpu.lastCode
    ∧ (acuJoining guardFirst n s).hpu.statSel = s.hpu.statSel
    ∧ (acuJoining guardFirst n s).hpu.statMode = s.hpu.statMode
    ∧ (acuJoining guardFirst n s).hpu.memberCopy = s.hpu.memberCopy
    ∧ (acuJoining guardFirst n s).hpu.mergeCopy = s.hpu.mergeCopy
    ∧ (acuJoining guardFirst n s).hpu.readWord = s.hpu.readWord
    ∧ (acuJoining guardFirst n s).hpu.resetnLow = s.hpu.resetnLow ∧ (acuJoining guardFirst n s).pending = s.pending
    ∧ (acuJoining guardFirst n s).pins = s.pins
    ∧ (acuJoining guardFirst n s).spc.sdata = s.spc.sdata ∧ (acuJoining guardFirst n s).spc.clocked = s.spc.clocked
    ∧ (acuJoining guardFirst n s).spc.clockTime = s.spc.clockTime := by
  simp only [acuJoining]
  (repeat' split) <;> simp

@[simp] theorem acuLeaving_frame (n : Scan) (s : State) :
    (acuLeaving n s).stu.gateHigh = s.stu.gateHigh ∧ (acuLeaving n s).stu.faultSeen = s.stu.faultSeen
    ∧ (acuLeaving n s).stu.index = s.stu.index ∧ (acuLeaving n s).stu.formed = s.stu.formed
    ∧ (acuLeaving n s).stu.solo = s.stu.solo ∧ (acuLeaving n s).stu.soloMade = s.stu.soloMade
    ∧ (acuLeaving n s).stu.time = s.stu.time ∧ (acuLeaving n s).stu.boundaryTime = s.stu.boundaryTime
    ∧ (acuLeaving n s).stu.startSerial = s.stu.startSerial ∧ (acuLeaving n s).ru.selector = s.ru.selector
    ∧ (acuLeaving n s).ru.reports = s.ru.reports ∧ (acuLeaving n s).mu = s.mu ∧ (acuLeaving n s).rcu = s.rcu
    ∧ (acuLeaving n s).hc.backlogReason = s.hc.backlogReason ∧ (acuLeaving n s).hc.freezeReason = s.hc.freezeReason
    ∧ (acuLeaving n s).hc.lastSent = s.hc.lastSent ∧ (acuLeaving n s).bac.line = s.bac.line
    ∧ (acuLeaving n s).bac.receiver = s.bac.receiver ∧ (acuLeaving n s).bac.inbound = s.bac.inbound
    ∧ (acuLeaving n s).bac.scanItems = s.bac.scanItems ∧ (acuLeaving n s).bac.inTx = s.bac.inTx
    ∧ (acuLeaving n s).bac.backoff = s.bac.backoff ∧ (acuLeaving n s).bac.resetPending = s.bac.resetPending
    ∧ (acuLeaving n s).bac.idleTime = s.bac.idleTime ∧ (acuLeaving n s).spc = s.spc ∧ (acuLeaving n s).cs = s.cs
    ∧ (acuLeaving n s).hpu.transaction = s.hpu.transaction ∧ (acuLeaving n s).hpu.mask = s.hpu.mask
    ∧ (acuLeaving n s).hpu.result = s.hpu.result ∧ (acuLeaving n s).hpu.lastCode = s.hpu.lastCode
    ∧ (acuLeaving n s).hpu.counters = s.hpu.counters ∧ (acuLeaving n s).hpu.statSel = s.hpu.statSel
    ∧ (acuLeaving n s).hpu.statMode = s.hpu.statMode ∧ (acuLeaving n s).hpu.memberCopy = s.hpu.memberCopy
    ∧ (acuLeaving n s).hpu.mergeCopy = s.hpu.mergeCopy ∧ (acuLeaving n s).hpu.readWord = s.hpu.readWord
    ∧ (acuLeaving n s).hpu.resetnLow = s.hpu.resetnLow ∧ (acuLeaving n s).acu.reason = s.acu.reason
    ∧ (acuLeaving n s).pending = s.pending
    ∧ (acuLeaving n s).pins = s.pins := by
  simp only [acuLeaving]
  (repeat' split) <;> simp

@[simp] theorem acuBoundary_frame (order : BoundaryOrder) (n : Scan) (s : State) :
    (acuBoundary order n s).stu.formed = s.stu.formed ∧ (acuBoundary order n s).stu.soloMade = s.stu.soloMade
    ∧ (acuBoundary order n s).stu.time = s.stu.time ∧ (acuBoundary order n s).stu.boundaryTime = s.stu.boundaryTime
    ∧ (acuBoundary order n s).stu.startSerial = s.stu.startSerial
    ∧ (acuBoundary order n s).ru.selector = s.ru.selector ∧ (acuBoundary order n s).mu.suspended = s.mu.suspended
    ∧ (acuBoundary order n s).mu.selector = s.mu.selector ∧ (acuBoundary order n s).rcu.projFirst = s.rcu.projFirst
    ∧ (acuBoundary order n s).rcu.projCount = s.rcu.projCount
    ∧ (acuBoundary order n s).hc.freezeReason = s.hc.freezeReason
    ∧ (acuBoundary order n s).hc.lastSent = s.hc.lastSent ∧ (acuBoundary order n s).bac.line = s.bac.line
    ∧ (acuBoundary order n s).bac.receiver = s.bac.receiver ∧ (acuBoundary order n s).bac.inbound = s.bac.inbound
    ∧ (acuBoundary order n s).bac.scanItems = s.bac.scanItems ∧ (acuBoundary order n s).bac.inTx = s.bac.inTx
    ∧ (acuBoundary order n s).bac.backoff = s.bac.backoff
    ∧ (acuBoundary order n s).bac.resetPending = s.bac.resetPending
    ∧ (acuBoundary order n s).bac.idleTime = s.bac.idleTime ∧ (acuBoundary order n s).spc.capture = s.spc.capture
    ∧ (acuBoundary order n s).spc.tag = s.spc.tag ∧ (acuBoundary order n s).spc.ready = s.spc.ready
    ∧ (acuBoundary order n s).spc.raw = s.spc.raw ∧ (acuBoundary order n s).spc.table = s.spc.table
    ∧ (acuBoundary order n s).spc.elapsed = s.spc.elapsed ∧ (acuBoundary order n s).cs = s.cs
    ∧ (acuBoundary order n s).hpu.transaction = s.hpu.transaction ∧ (acuBoundary order n s).hpu.mask = s.hpu.mask
    ∧ (acuBoundary order n s).hpu.result = s.hpu.result ∧ (acuBoundary order n s).hpu.lastCode = s.hpu.lastCode
    ∧ (acuBoundary order n s).hpu.statSel = s.hpu.statSel ∧ (acuBoundary order n s).hpu.statMode = s.hpu.statMode
    ∧ (acuBoundary order n s).hpu.memberCopy = s.hpu.memberCopy
    ∧ (acuBoundary order n s).hpu.mergeCopy = s.hpu.mergeCopy ∧ (acuBoundary order n s).hpu.readWord = s.hpu.readWord
    ∧ (acuBoundary order n s).hpu.resetnLow = s.hpu.resetnLow ∧ (acuBoundary order n s).pending = s.pending
    ∧ (acuBoundary order n s).pins = s.pins
    ∧ (acuBoundary order n s).spc.sdata = s.spc.sdata ∧ (acuBoundary order n s).spc.clocked = s.spc.clocked
    ∧ (acuBoundary order n s).spc.clockTime = s.spc.clockTime := by
  simp only [acuBoundary]
  (repeat' split) <;> simp

@[simp] theorem signalBoundary_frame (order : BoundaryOrder) (s : State) :
    (signalBoundary order s).stu.soloMade = s.stu.soloMade ∧ (signalBoundary order s).stu.time = s.stu.time
    ∧ (signalBoundary order s).stu.boundaryTime = s.stu.boundaryTime
    ∧ (signalBoundary order s).stu.startSerial = s.stu.startSerial
    ∧ (signalBoundary order s).ru.selector = s.ru.selector ∧ (signalBoundary order s).mu.suspended = s.mu.suspended
    ∧ (signalBoundary order s).mu.selector = s.mu.selector ∧ (signalBoundary order s).rcu.projFirst = s.rcu.projFirst
    ∧ (signalBoundary order s).rcu.projCount = s.rcu.projCount
    ∧ (signalBoundary order s).hc.freezeReason = s.hc.freezeReason
    ∧ (signalBoundary order s).hc.lastSent = s.hc.lastSent ∧ (signalBoundary order s).bac.line = s.bac.line
    ∧ (signalBoundary order s).bac.receiver = s.bac.receiver ∧ (signalBoundary order s).bac.inbound = s.bac.inbound
    ∧ (signalBoundary order s).bac.inTx = s.bac.inTx ∧ (signalBoundary order s).bac.backoff = s.bac.backoff
    ∧ (signalBoundary order s).bac.resetPending = s.bac.resetPending
    ∧ (signalBoundary order s).bac.idleTime = s.bac.idleTime ∧ (signalBoundary order s).spc.table = s.spc.table
    ∧ (signalBoundary order s).cs = s.cs ∧ (signalBoundary order s).hpu.transaction = s.hpu.transaction
    ∧ (signalBoundary order s).hpu.mask = s.hpu.mask ∧ (signalBoundary order s).hpu.result = s.hpu.result
    ∧ (signalBoundary order s).hpu.lastCode = s.hpu.lastCode ∧ (signalBoundary order s).hpu.statSel = s.hpu.statSel
    ∧ (signalBoundary order s).hpu.statMode = s.hpu.statMode
    ∧ (signalBoundary order s).hpu.memberCopy = s.hpu.memberCopy
    ∧ (signalBoundary order s).hpu.mergeCopy = s.hpu.mergeCopy
    ∧ (signalBoundary order s).hpu.readWord = s.hpu.readWord
    ∧ (signalBoundary order s).hpu.resetnLow = s.hpu.resetnLow ∧ (signalBoundary order s).pending = s.pending
    ∧ (signalBoundary order s).pins = s.pins
    ∧ (signalBoundary order s).spc.sdata = s.spc.sdata ∧ (signalBoundary order s).spc.clockTime = s.spc.clockTime := by
  simp only [signalBoundary]
  (repeat' split) <;> simp

@[simp] theorem boundaryEffect_frame (order : BoundaryOrder) (s : State) :
    (boundaryEffect order s).stu.soloMade = s.stu.soloMade ∧ (boundaryEffect order s).stu.time = s.stu.time
    ∧ (boundaryEffect order s).ru.selector = s.ru.selector ∧ (boundaryEffect order s).mu.suspended = s.mu.suspended
    ∧ (boundaryEffect order s).mu.selector = s.mu.selector ∧ (boundaryEffect order s).rcu.projFirst = s.rcu.projFirst
    ∧ (boundaryEffect order s).rcu.projCount = s.rcu.projCount
    ∧ (boundaryEffect order s).hc.freezeReason = s.hc.freezeReason
    ∧ (boundaryEffect order s).hc.lastSent = s.hc.lastSent ∧ (boundaryEffect order s).bac.line = s.bac.line
    ∧ (boundaryEffect order s).bac.receiver = s.bac.receiver ∧ (boundaryEffect order s).bac.inbound = s.bac.inbound
    ∧ (boundaryEffect order s).bac.inTx = s.bac.inTx ∧ (boundaryEffect order s).bac.backoff = s.bac.backoff
    ∧ (boundaryEffect order s).bac.resetPending = s.bac.resetPending
    ∧ (boundaryEffect order s).bac.idleTime = s.bac.idleTime ∧ (boundaryEffect order s).spc.table = s.spc.table
    ∧ (boundaryEffect order s).cs = s.cs ∧ (boundaryEffect order s).hpu.transaction = s.hpu.transaction
    ∧ (boundaryEffect order s).hpu.mask = s.hpu.mask ∧ (boundaryEffect order s).hpu.result = s.hpu.result
    ∧ (boundaryEffect order s).hpu.lastCode = s.hpu.lastCode ∧ (boundaryEffect order s).hpu.statSel = s.hpu.statSel
    ∧ (boundaryEffect order s).hpu.statMode = s.hpu.statMode
    ∧ (boundaryEffect order s).hpu.memberCopy = s.hpu.memberCopy
    ∧ (boundaryEffect order s).hpu.mergeCopy = s.hpu.mergeCopy
    ∧ (boundaryEffect order s).hpu.readWord = s.hpu.readWord
    ∧ (boundaryEffect order s).hpu.resetnLow = s.hpu.resetnLow ∧ (boundaryEffect order s).pending = s.pending
    ∧ (boundaryEffect order s).pins = s.pins
    ∧ (boundaryEffect order s).spc.sdata = s.spc.sdata ∧ (boundaryEffect order s).spc.clockTime = s.spc.clockTime := by
  simp only [boundaryEffect]
  (repeat' split) <;> simp

@[simp] theorem scanPeriodExpiryEffect_frame (s : State) :
    (scanPeriodExpiryEffect s).stu.gateHigh = s.stu.gateHigh
    ∧ (scanPeriodExpiryEffect s).stu.faultSeen = s.stu.faultSeen ∧ (scanPeriodExpiryEffect s).stu.guard = s.stu.guard
    ∧ (scanPeriodExpiryEffect s).stu.take = s.stu.take ∧ (scanPeriodExpiryEffect s).stu.index = s.stu.index
    ∧ (scanPeriodExpiryEffect s).stu.formed = s.stu.formed
    ∧ (scanPeriodExpiryEffect s).stu.stallFlag = s.stu.stallFlag ∧ (scanPeriodExpiryEffect s).stu.solo = s.stu.solo
    ∧ (scanPeriodExpiryEffect s).stu.soloMade = s.stu.soloMade ∧ (scanPeriodExpiryEffect s).stu.time = s.stu.time
    ∧ (scanPeriodExpiryEffect s).stu.boundaryTime = s.stu.boundaryTime
    ∧ (scanPeriodExpiryEffect s).stu.startSerial = s.stu.startSerial ∧ (scanPeriodExpiryEffect s).ru = s.ru
    ∧ (scanPeriodExpiryEffect s).mu = s.mu ∧ (scanPeriodExpiryEffect s).rcu = s.rcu
    ∧ (scanPeriodExpiryEffect s).hc = s.hc ∧ (scanPeriodExpiryEffect s).bac = s.bac
    ∧ (scanPeriodExpiryEffect s).spc = s.spc ∧ (scanPeriodExpiryEffect s).cs = s.cs
    ∧ (scanPeriodExpiryEffect s).hpu = s.hpu ∧ (scanPeriodExpiryEffect s).acu = s.acu
    ∧ (scanPeriodExpiryEffect s).pending = s.pending
    ∧ (scanPeriodExpiryEffect s).pins = s.pins := by
  simp only [scanPeriodExpiryEffect]
  (repeat' split) <;> simp

@[simp] theorem gateFaultEffect_frame (s : State) :
    (gateFaultEffect s).stu.gate = s.stu.gate ∧ (gateFaultEffect s).stu.guard = s.stu.guard
    ∧ (gateFaultEffect s).stu.take = s.stu.take ∧ (gateFaultEffect s).stu.index = s.stu.index
    ∧ (gateFaultEffect s).stu.period = s.stu.period ∧ (gateFaultEffect s).stu.formed = s.stu.formed
    ∧ (gateFaultEffect s).stu.stall = s.stu.stall ∧ (gateFaultEffect s).stu.stallFlag = s.stu.stallFlag
    ∧ (gateFaultEffect s).stu.solo = s.stu.solo ∧ (gateFaultEffect s).stu.soloMade = s.stu.soloMade
    ∧ (gateFaultEffect s).stu.time = s.stu.time ∧ (gateFaultEffect s).stu.boundaryTime = s.stu.boundaryTime
    ∧ (gateFaultEffect s).stu.startSerial = s.stu.startSerial ∧ (gateFaultEffect s).ru = s.ru
    ∧ (gateFaultEffect s).mu = s.mu ∧ (gateFaultEffect s).rcu = s.rcu ∧ (gateFaultEffect s).hc = s.hc
    ∧ (gateFaultEffect s).bac = s.bac ∧ (gateFaultEffect s).spc = s.spc ∧ (gateFaultEffect s).cs = s.cs
    ∧ (gateFaultEffect s).hpu.transaction = s.hpu.transaction ∧ (gateFaultEffect s).hpu.mask = s.hpu.mask
    ∧ (gateFaultEffect s).hpu.result = s.hpu.result ∧ (gateFaultEffect s).hpu.lastCode = s.hpu.lastCode
    ∧ (gateFaultEffect s).hpu.counters = s.hpu.counters ∧ (gateFaultEffect s).hpu.statSel = s.hpu.statSel
    ∧ (gateFaultEffect s).hpu.statMode = s.hpu.statMode ∧ (gateFaultEffect s).hpu.memberCopy = s.hpu.memberCopy
    ∧ (gateFaultEffect s).hpu.mergeCopy = s.hpu.mergeCopy ∧ (gateFaultEffect s).hpu.readWord = s.hpu.readWord
    ∧ (gateFaultEffect s).hpu.resetnLow = s.hpu.resetnLow ∧ (gateFaultEffect s).acu = s.acu
    ∧ (gateFaultEffect s).pending = s.pending
    ∧ (gateFaultEffect s).pins = s.pins := by
  simp only [gateFaultEffect]
  (repeat' split) <;> simp

@[simp] theorem soloBoundaryEffect_frame (s : State) :
    (soloBoundaryEffect s).stu.gateHigh = s.stu.gateHigh ∧ (soloBoundaryEffect s).stu.faultSeen = s.stu.faultSeen
    ∧ (soloBoundaryEffect s).stu.index = s.stu.index ∧ (soloBoundaryEffect s).stu.time = s.stu.time
    ∧ (soloBoundaryEffect s).stu.boundaryTime = s.stu.boundaryTime
    ∧ (soloBoundaryEffect s).ru.selector = s.ru.selector ∧ (soloBoundaryEffect s).mu.suspended = s.mu.suspended
    ∧ (soloBoundaryEffect s).mu.selector = s.mu.selector ∧ (soloBoundaryEffect s).rcu.projFirst = s.rcu.projFirst
    ∧ (soloBoundaryEffect s).rcu.projCount = s.rcu.projCount
    ∧ (soloBoundaryEffect s).hc.freezeReason = s.hc.freezeReason ∧ (soloBoundaryEffect s).hc.lastSent = s.hc.lastSent
    ∧ (soloBoundaryEffect s).bac.line = s.bac.line ∧ (soloBoundaryEffect s).bac.receiver = s.bac.receiver
    ∧ (soloBoundaryEffect s).bac.inbound = s.bac.inbound ∧ (soloBoundaryEffect s).bac.inTx = s.bac.inTx
    ∧ (soloBoundaryEffect s).bac.backoff = s.bac.backoff
    ∧ (soloBoundaryEffect s).bac.resetPending = s.bac.resetPending
    ∧ (soloBoundaryEffect s).bac.idleTime = s.bac.idleTime ∧ (soloBoundaryEffect s).spc.table = s.spc.table
    ∧ (soloBoundaryEffect s).cs = s.cs ∧ (soloBoundaryEffect s).hpu.transaction = s.hpu.transaction
    ∧ (soloBoundaryEffect s).hpu.mask = s.hpu.mask ∧ (soloBoundaryEffect s).hpu.result = s.hpu.result
    ∧ (soloBoundaryEffect s).hpu.lastCode = s.hpu.lastCode ∧ (soloBoundaryEffect s).hpu.statSel = s.hpu.statSel
    ∧ (soloBoundaryEffect s).hpu.statMode = s.hpu.statMode ∧ (soloBoundaryEffect s).hpu.memberCopy = s.hpu.memberCopy
    ∧ (soloBoundaryEffect s).hpu.mergeCopy = s.hpu.mergeCopy ∧ (soloBoundaryEffect s).hpu.readWord = s.hpu.readWord
    ∧ (soloBoundaryEffect s).hpu.resetnLow = s.hpu.resetnLow ∧ (soloBoundaryEffect s).acu.reason = s.acu.reason
    ∧ (soloBoundaryEffect s).pending = s.pending
    ∧ (soloBoundaryEffect s).pins = s.pins
    ∧ (soloBoundaryEffect s).spc.sdata = s.spc.sdata ∧ (soloBoundaryEffect s).spc.clockTime = s.spc.clockTime := by
  simp only [soloBoundaryEffect]
  (repeat' split) <;> simp

@[simp] theorem stalled_frame (s : State) :
    (stalled s).stu.gate = s.stu.gate ∧ (stalled s).stu.gateHigh = s.stu.gateHigh
    ∧ (stalled s).stu.faultSeen = s.stu.faultSeen ∧ (stalled s).stu.guard = s.stu.guard
    ∧ (stalled s).stu.take = s.stu.take ∧ (stalled s).stu.index = s.stu.index ∧ (stalled s).stu.period = s.stu.period
    ∧ (stalled s).stu.formed = s.stu.formed ∧ (stalled s).stu.stall = s.stu.stall ∧ (stalled s).stu.solo = s.stu.solo
    ∧ (stalled s).stu.soloMade = s.stu.soloMade ∧ (stalled s).stu.time = s.stu.time
    ∧ (stalled s).stu.boundaryTime = s.stu.boundaryTime ∧ (stalled s).stu.startSerial = s.stu.startSerial
    ∧ (stalled s).ru = s.ru ∧ (stalled s).mu = s.mu ∧ (stalled s).rcu = s.rcu ∧ (stalled s).hc = s.hc
    ∧ (stalled s).bac = s.bac ∧ (stalled s).spc = s.spc ∧ (stalled s).cs = s.cs
    ∧ (stalled s).hpu.transaction = s.hpu.transaction ∧ (stalled s).hpu.mask = s.hpu.mask
    ∧ (stalled s).hpu.result = s.hpu.result ∧ (stalled s).hpu.lastCode = s.hpu.lastCode
    ∧ (stalled s).hpu.statSel = s.hpu.statSel ∧ (stalled s).hpu.statMode = s.hpu.statMode
    ∧ (stalled s).hpu.memberCopy = s.hpu.memberCopy ∧ (stalled s).hpu.mergeCopy = s.hpu.mergeCopy
    ∧ (stalled s).hpu.readWord = s.hpu.readWord ∧ (stalled s).hpu.resetnLow = s.hpu.resetnLow
    ∧ (stalled s).acu = s.acu ∧ (stalled s).pending = s.pending
    ∧ (stalled s).pins = s.pins := by
  simp [stalled]

@[simp] theorem stallTimerExpiryEffect_frame (s : State) :
    (stallTimerExpiryEffect s).stu.gateHigh = s.stu.gateHigh
    ∧ (stallTimerExpiryEffect s).stu.faultSeen = s.stu.faultSeen ∧ (stallTimerExpiryEffect s).stu.index = s.stu.index
    ∧ (stallTimerExpiryEffect s).stu.formed = s.stu.formed ∧ (stallTimerExpiryEffect s).stu.solo = s.stu.solo
    ∧ (stallTimerExpiryEffect s).stu.soloMade = s.stu.soloMade ∧ (stallTimerExpiryEffect s).stu.time = s.stu.time
    ∧ (stallTimerExpiryEffect s).stu.boundaryTime = s.stu.boundaryTime
    ∧ (stallTimerExpiryEffect s).stu.startSerial = s.stu.startSerial
    ∧ (stallTimerExpiryEffect s).ru.selector = s.ru.selector
    ∧ (stallTimerExpiryEffect s).mu.suspended = s.mu.suspended
    ∧ (stallTimerExpiryEffect s).mu.selector = s.mu.selector
    ∧ (stallTimerExpiryEffect s).rcu.projFirst = s.rcu.projFirst
    ∧ (stallTimerExpiryEffect s).rcu.projCount = s.rcu.projCount
    ∧ (stallTimerExpiryEffect s).hc.freezeReason = s.hc.freezeReason
    ∧ (stallTimerExpiryEffect s).hc.lastSent = s.hc.lastSent ∧ (stallTimerExpiryEffect s).bac.line = s.bac.line
    ∧ (stallTimerExpiryEffect s).bac.receiver = s.bac.receiver
    ∧ (stallTimerExpiryEffect s).bac.inbound = s.bac.inbound
    ∧ (stallTimerExpiryEffect s).bac.scanItems = s.bac.scanItems ∧ (stallTimerExpiryEffect s).bac.inTx = s.bac.inTx
    ∧ (stallTimerExpiryEffect s).bac.backoff = s.bac.backoff
    ∧ (stallTimerExpiryEffect s).bac.resetPending = s.bac.resetPending
    ∧ (stallTimerExpiryEffect s).bac.idleTime = s.bac.idleTime ∧ (stallTimerExpiryEffect s).spc = s.spc
    ∧ (stallTimerExpiryEffect s).cs = s.cs ∧ (stallTimerExpiryEffect s).hpu.transaction = s.hpu.transaction
    ∧ (stallTimerExpiryEffect s).hpu.mask = s.hpu.mask ∧ (stallTimerExpiryEffect s).hpu.result = s.hpu.result
    ∧ (stallTimerExpiryEffect s).hpu.lastCode = s.hpu.lastCode
    ∧ (stallTimerExpiryEffect s).hpu.statSel = s.hpu.statSel
    ∧ (stallTimerExpiryEffect s).hpu.statMode = s.hpu.statMode
    ∧ (stallTimerExpiryEffect s).hpu.memberCopy = s.hpu.memberCopy
    ∧ (stallTimerExpiryEffect s).hpu.mergeCopy = s.hpu.mergeCopy
    ∧ (stallTimerExpiryEffect s).hpu.readWord = s.hpu.readWord
    ∧ (stallTimerExpiryEffect s).hpu.resetnLow = s.hpu.resetnLow
    ∧ (stallTimerExpiryEffect s).acu.reason = s.acu.reason ∧ (stallTimerExpiryEffect s).pending = s.pending
    ∧ (stallTimerExpiryEffect s).pins = s.pins := by
  simp only [stallTimerExpiryEffect]
  (repeat' split) <;> simp

@[simp] theorem gateLowEffect_frame (s : State) :
    (gateLowEffect s).stu.gate = s.stu.gate ∧ (gateLowEffect s).stu.faultSeen = s.stu.faultSeen
    ∧ (gateLowEffect s).stu.guard = s.stu.guard ∧ (gateLowEffect s).stu.take = s.stu.take
    ∧ (gateLowEffect s).stu.index = s.stu.index ∧ (gateLowEffect s).stu.period = s.stu.period
    ∧ (gateLowEffect s).stu.formed = s.stu.formed ∧ (gateLowEffect s).stu.stall = s.stu.stall
    ∧ (gateLowEffect s).stu.stallFlag = s.stu.stallFlag ∧ (gateLowEffect s).stu.solo = s.stu.solo
    ∧ (gateLowEffect s).stu.soloMade = s.stu.soloMade ∧ (gateLowEffect s).stu.time = s.stu.time
    ∧ (gateLowEffect s).stu.boundaryTime = s.stu.boundaryTime ∧ (gateLowEffect s).stu.startSerial = s.stu.startSerial
    ∧ (gateLowEffect s).ru = s.ru ∧ (gateLowEffect s).mu = s.mu ∧ (gateLowEffect s).rcu = s.rcu
    ∧ (gateLowEffect s).hc = s.hc ∧ (gateLowEffect s).bac = s.bac ∧ (gateLowEffect s).spc = s.spc
    ∧ (gateLowEffect s).cs = s.cs ∧ (gateLowEffect s).hpu = s.hpu ∧ (gateLowEffect s).acu = s.acu
    ∧ (gateLowEffect s).pending = s.pending
    ∧ (gateLowEffect s).pins = s.pins := by
  simp [gateLowEffect]

@[simp] theorem foundGate_frame (s : State) :
    (foundGate s).stu.guard = s.stu.guard ∧ (foundGate s).stu.stallFlag = s.stu.stallFlag
    ∧ (foundGate s).stu.solo = s.stu.solo ∧ (foundGate s).stu.soloMade = s.stu.soloMade
    ∧ (foundGate s).stu.time = s.stu.time ∧ (foundGate s).ru = s.ru ∧ (foundGate s).mu = s.mu
    ∧ (foundGate s).rcu = s.rcu ∧ (foundGate s).hc.backlogReason = s.hc.backlogReason
    ∧ (foundGate s).hc.freezeReason = s.hc.freezeReason ∧ (foundGate s).hc.lastSent = s.hc.lastSent
    ∧ (foundGate s).bac.line = s.bac.line ∧ (foundGate s).bac.receiver = s.bac.receiver
    ∧ (foundGate s).bac.inbound = s.bac.inbound ∧ (foundGate s).bac.rosterItem = s.bac.rosterItem
    ∧ (foundGate s).bac.scanItems = s.bac.scanItems ∧ (foundGate s).bac.inTx = s.bac.inTx
    ∧ (foundGate s).bac.backoff = s.bac.backoff ∧ (foundGate s).bac.resetPending = s.bac.resetPending
    ∧ (foundGate s).bac.idleTime = s.bac.idleTime ∧ (foundGate s).spc = s.spc ∧ (foundGate s).cs = s.cs
    ∧ (foundGate s).hpu = s.hpu ∧ (foundGate s).acu = s.acu ∧ (foundGate s).pending = s.pending
    ∧ (foundGate s).pins = s.pins := by
  simp [foundGate]

@[simp] theorem openFounding_frame (s : State) :
    (openFounding s).stu = s.stu ∧ (openFounding s).ru = s.ru ∧ (openFounding s).mu.suspended = s.mu.suspended
    ∧ (openFounding s).mu.selector = s.mu.selector ∧ (openFounding s).rcu = s.rcu ∧ (openFounding s).hc = s.hc
    ∧ (openFounding s).bac = s.bac ∧ (openFounding s).spc = s.spc ∧ (openFounding s).cs = s.cs
    ∧ (openFounding s).hpu = s.hpu ∧ (openFounding s).acu = s.acu ∧ (openFounding s).pending = s.pending
    ∧ (openFounding s).pins = s.pins := by
  simp only [openFounding]
  (repeat' split) <;> simp

@[simp] theorem found_frame (s : State) :
    (found s).stu.soloMade = s.stu.soloMade ∧ (found s).stu.time = s.stu.time ∧ (found s).ru.selector = s.ru.selector
    ∧ (found s).mu.suspended = s.mu.suspended ∧ (found s).mu.selector = s.mu.selector
    ∧ (found s).rcu.projFirst = s.rcu.projFirst ∧ (found s).rcu.projCount = s.rcu.projCount
    ∧ (found s).hc.freezeReason = s.hc.freezeReason ∧ (found s).hc.lastSent = s.hc.lastSent
    ∧ (found s).bac.line = s.bac.line ∧ (found s).bac.receiver = s.bac.receiver
    ∧ (found s).bac.inbound = s.bac.inbound ∧ (found s).bac.inTx = s.bac.inTx ∧ (found s).bac.backoff = s.bac.backoff
    ∧ (found s).bac.resetPending = s.bac.resetPending ∧ (found s).bac.idleTime = s.bac.idleTime
    ∧ (found s).spc.table = s.spc.table ∧ (found s).cs = s.cs ∧ (found s).hpu.transaction = s.hpu.transaction
    ∧ (found s).hpu.mask = s.hpu.mask ∧ (found s).hpu.result = s.hpu.result ∧ (found s).hpu.lastCode = s.hpu.lastCode
    ∧ (found s).hpu.statSel = s.hpu.statSel ∧ (found s).hpu.statMode = s.hpu.statMode
    ∧ (found s).hpu.memberCopy = s.hpu.memberCopy ∧ (found s).hpu.mergeCopy = s.hpu.mergeCopy
    ∧ (found s).hpu.readWord = s.hpu.readWord ∧ (found s).hpu.resetnLow = s.hpu.resetnLow
    ∧ (found s).acu.reason = s.acu.reason ∧ (found s).pending = s.pending
    ∧ (found s).pins = s.pins
    ∧ (found s).spc.sdata = s.spc.sdata ∧ (found s).spc.clockTime = s.spc.clockTime := by
  simp [found]

@[simp] theorem requestFounding_frame (gateFell : Bool) (s : State) :
    (requestFounding gateFell s).stu.soloMade = s.stu.soloMade ∧ (requestFounding gateFell s).stu.time = s.stu.time
    ∧ (requestFounding gateFell s).ru.selector = s.ru.selector
    ∧ (requestFounding gateFell s).mu.suspended = s.mu.suspended
    ∧ (requestFounding gateFell s).mu.selector = s.mu.selector
    ∧ (requestFounding gateFell s).rcu.projFirst = s.rcu.projFirst
    ∧ (requestFounding gateFell s).rcu.projCount = s.rcu.projCount
    ∧ (requestFounding gateFell s).hc.freezeReason = s.hc.freezeReason
    ∧ (requestFounding gateFell s).hc.lastSent = s.hc.lastSent ∧ (requestFounding gateFell s).bac.line = s.bac.line
    ∧ (requestFounding gateFell s).bac.receiver = s.bac.receiver
    ∧ (requestFounding gateFell s).bac.inbound = s.bac.inbound ∧ (requestFounding gateFell s).bac.inTx = s.bac.inTx
    ∧ (requestFounding gateFell s).bac.backoff = s.bac.backoff
    ∧ (requestFounding gateFell s).bac.resetPending = s.bac.resetPending
    ∧ (requestFounding gateFell s).bac.idleTime = s.bac.idleTime
    ∧ (requestFounding gateFell s).spc.table = s.spc.table ∧ (requestFounding gateFell s).cs = s.cs
    ∧ (requestFounding gateFell s).hpu.transaction = s.hpu.transaction
    ∧ (requestFounding gateFell s).hpu.mask = s.hpu.mask ∧ (requestFounding gateFell s).hpu.result = s.hpu.result
    ∧ (requestFounding gateFell s).hpu.lastCode = s.hpu.lastCode
    ∧ (requestFounding gateFell s).hpu.statSel = s.hpu.statSel
    ∧ (requestFounding gateFell s).hpu.statMode = s.hpu.statMode
    ∧ (requestFounding gateFell s).hpu.memberCopy = s.hpu.memberCopy
    ∧ (requestFounding gateFell s).hpu.mergeCopy = s.hpu.mergeCopy
    ∧ (requestFounding gateFell s).hpu.readWord = s.hpu.readWord
    ∧ (requestFounding gateFell s).hpu.resetnLow = s.hpu.resetnLow
    ∧ (requestFounding gateFell s).acu.reason = s.acu.reason ∧ (requestFounding gateFell s).pending = s.pending
    ∧ (requestFounding gateFell s).pins = s.pins
    ∧ (requestFounding gateFell s).spc.sdata = s.spc.sdata
    ∧ (requestFounding gateFell s).spc.clockTime = s.spc.clockTime := by
  simp only [requestFounding]
  (repeat' split) <;> simp

@[simp] theorem listenExpired_frame (gateFell : Bool) (s : State) :
    (listenExpired gateFell s).stu.soloMade = s.stu.soloMade ∧ (listenExpired gateFell s).stu.time = s.stu.time
    ∧ (listenExpired gateFell s).ru.selector = s.ru.selector
    ∧ (listenExpired gateFell s).mu.suspended = s.mu.suspended
    ∧ (listenExpired gateFell s).mu.selector = s.mu.selector
    ∧ (listenExpired gateFell s).rcu.projFirst = s.rcu.projFirst
    ∧ (listenExpired gateFell s).rcu.projCount = s.rcu.projCount
    ∧ (listenExpired gateFell s).hc.freezeReason = s.hc.freezeReason
    ∧ (listenExpired gateFell s).hc.lastSent = s.hc.lastSent ∧ (listenExpired gateFell s).bac.line = s.bac.line
    ∧ (listenExpired gateFell s).bac.receiver = s.bac.receiver
    ∧ (listenExpired gateFell s).bac.inbound = s.bac.inbound ∧ (listenExpired gateFell s).bac.inTx = s.bac.inTx
    ∧ (listenExpired gateFell s).bac.backoff = s.bac.backoff
    ∧ (listenExpired gateFell s).bac.resetPending = s.bac.resetPending
    ∧ (listenExpired gateFell s).bac.idleTime = s.bac.idleTime ∧ (listenExpired gateFell s).spc.table = s.spc.table
    ∧ (listenExpired gateFell s).cs = s.cs ∧ (listenExpired gateFell s).hpu.transaction = s.hpu.transaction
    ∧ (listenExpired gateFell s).hpu.mask = s.hpu.mask ∧ (listenExpired gateFell s).hpu.result = s.hpu.result
    ∧ (listenExpired gateFell s).hpu.lastCode = s.hpu.lastCode
    ∧ (listenExpired gateFell s).hpu.statSel = s.hpu.statSel
    ∧ (listenExpired gateFell s).hpu.statMode = s.hpu.statMode
    ∧ (listenExpired gateFell s).hpu.memberCopy = s.hpu.memberCopy
    ∧ (listenExpired gateFell s).hpu.mergeCopy = s.hpu.mergeCopy
    ∧ (listenExpired gateFell s).hpu.readWord = s.hpu.readWord
    ∧ (listenExpired gateFell s).hpu.resetnLow = s.hpu.resetnLow ∧ (listenExpired gateFell s).pending = s.pending
    ∧ (listenExpired gateFell s).pins = s.pins
    ∧ (listenExpired gateFell s).spc.sdata = s.spc.sdata ∧ (listenExpired gateFell s).spc.clockTime = s.spc.clockTime := by
  simp only [listenExpired]
  (repeat' split) <;> simp

@[simp] theorem listenTimerExpiryEffect_frame (gateFell : Bool) (s : State) :
    (listenTimerExpiryEffect gateFell s).stu.soloMade = s.stu.soloMade
    ∧ (listenTimerExpiryEffect gateFell s).stu.time = s.stu.time
    ∧ (listenTimerExpiryEffect gateFell s).ru.selector = s.ru.selector
    ∧ (listenTimerExpiryEffect gateFell s).mu.suspended = s.mu.suspended
    ∧ (listenTimerExpiryEffect gateFell s).mu.selector = s.mu.selector
    ∧ (listenTimerExpiryEffect gateFell s).rcu.projFirst = s.rcu.projFirst
    ∧ (listenTimerExpiryEffect gateFell s).rcu.projCount = s.rcu.projCount
    ∧ (listenTimerExpiryEffect gateFell s).hc.freezeReason = s.hc.freezeReason
    ∧ (listenTimerExpiryEffect gateFell s).hc.lastSent = s.hc.lastSent
    ∧ (listenTimerExpiryEffect gateFell s).bac.line = s.bac.line
    ∧ (listenTimerExpiryEffect gateFell s).bac.receiver = s.bac.receiver
    ∧ (listenTimerExpiryEffect gateFell s).bac.inbound = s.bac.inbound
    ∧ (listenTimerExpiryEffect gateFell s).bac.inTx = s.bac.inTx
    ∧ (listenTimerExpiryEffect gateFell s).bac.backoff = s.bac.backoff
    ∧ (listenTimerExpiryEffect gateFell s).bac.resetPending = s.bac.resetPending
    ∧ (listenTimerExpiryEffect gateFell s).bac.idleTime = s.bac.idleTime
    ∧ (listenTimerExpiryEffect gateFell s).spc.table = s.spc.table ∧ (listenTimerExpiryEffect gateFell s).cs = s.cs
    ∧ (listenTimerExpiryEffect gateFell s).hpu.transaction = s.hpu.transaction
    ∧ (listenTimerExpiryEffect gateFell s).hpu.mask = s.hpu.mask
    ∧ (listenTimerExpiryEffect gateFell s).hpu.result = s.hpu.result
    ∧ (listenTimerExpiryEffect gateFell s).hpu.lastCode = s.hpu.lastCode
    ∧ (listenTimerExpiryEffect gateFell s).hpu.statSel = s.hpu.statSel
    ∧ (listenTimerExpiryEffect gateFell s).hpu.statMode = s.hpu.statMode
    ∧ (listenTimerExpiryEffect gateFell s).hpu.memberCopy = s.hpu.memberCopy
    ∧ (listenTimerExpiryEffect gateFell s).hpu.mergeCopy = s.hpu.mergeCopy
    ∧ (listenTimerExpiryEffect gateFell s).hpu.readWord = s.hpu.readWord
    ∧ (listenTimerExpiryEffect gateFell s).hpu.resetnLow = s.hpu.resetnLow
    ∧ (listenTimerExpiryEffect gateFell s).pending = s.pending
    ∧ (listenTimerExpiryEffect gateFell s).pins = s.pins
    ∧ (listenTimerExpiryEffect gateFell s).spc.sdata = s.spc.sdata
    ∧ (listenTimerExpiryEffect gateFell s).spc.clockTime = s.spc.clockTime := by
  simp only [listenTimerExpiryEffect]
  (repeat' split) <;> simp

@[simp] theorem takeJoin_frame (s : State) :
    (takeJoin s).stu.gateHigh = s.stu.gateHigh ∧ (takeJoin s).stu.faultSeen = s.stu.faultSeen
    ∧ (takeJoin s).stu.guard = s.stu.guard ∧ (takeJoin s).stu.take = s.stu.take ∧ (takeJoin s).stu.index = s.stu.index
    ∧ (takeJoin s).stu.formed = s.stu.formed ∧ (takeJoin s).stu.stallFlag = s.stu.stallFlag
    ∧ (takeJoin s).stu.soloMade = s.stu.soloMade ∧ (takeJoin s).stu.time = s.stu.time
    ∧ (takeJoin s).stu.boundaryTime = s.stu.boundaryTime ∧ (takeJoin s).stu.startSerial = s.stu.startSerial
    ∧ (takeJoin s).ru = s.ru ∧ (takeJoin s).mu = s.mu ∧ (takeJoin s).rcu = s.rcu
    ∧ (takeJoin s).hc.backlogReason = s.hc.backlogReason ∧ (takeJoin s).hc.freezeReason = s.hc.freezeReason
    ∧ (takeJoin s).hc.lastSent = s.hc.lastSent ∧ (takeJoin s).bac.line = s.bac.line
    ∧ (takeJoin s).bac.receiver = s.bac.receiver ∧ (takeJoin s).bac.inbound = s.bac.inbound
    ∧ (takeJoin s).bac.rosterItem = s.bac.rosterItem ∧ (takeJoin s).bac.scanItems = s.bac.scanItems
    ∧ (takeJoin s).bac.inTx = s.bac.inTx ∧ (takeJoin s).bac.backoff = s.bac.backoff
    ∧ (takeJoin s).bac.resetPending = s.bac.resetPending ∧ (takeJoin s).bac.idleTime = s.bac.idleTime
    ∧ (takeJoin s).spc = s.spc ∧ (takeJoin s).cs = s.cs ∧ (takeJoin s).hpu.transaction = s.hpu.transaction
    ∧ (takeJoin s).hpu.events = s.hpu.events ∧ (takeJoin s).hpu.mask = s.hpu.mask
    ∧ (takeJoin s).hpu.lastCode = s.hpu.lastCode ∧ (takeJoin s).hpu.counters = s.hpu.counters
    ∧ (takeJoin s).hpu.statSel = s.hpu.statSel ∧ (takeJoin s).hpu.statMode = s.hpu.statMode
    ∧ (takeJoin s).hpu.memberCopy = s.hpu.memberCopy ∧ (takeJoin s).hpu.mergeCopy = s.hpu.mergeCopy
    ∧ (takeJoin s).hpu.readWord = s.hpu.readWord ∧ (takeJoin s).hpu.resetnLow = s.hpu.resetnLow
    ∧ (takeJoin s).acu.joinScan = s.acu.joinScan ∧ (takeJoin s).acu.leaveScan = s.acu.leaveScan
    ∧ (takeJoin s).acu.refusalPending = s.acu.refusalPending ∧ (takeJoin s).acu.drain = s.acu.drain
    ∧ (takeJoin s).pending = s.pending
    ∧ (takeJoin s).pins = s.pins := by
  simp only [takeJoin]
  (repeat' split) <;> simp

@[simp] theorem joinEffect_frame (s : State) :
    (joinEffect s).stu.gateHigh = s.stu.gateHigh ∧ (joinEffect s).stu.faultSeen = s.stu.faultSeen
    ∧ (joinEffect s).stu.guard = s.stu.guard ∧ (joinEffect s).stu.take = s.stu.take
    ∧ (joinEffect s).stu.index = s.stu.index ∧ (joinEffect s).stu.formed = s.stu.formed
    ∧ (joinEffect s).stu.stallFlag = s.stu.stallFlag ∧ (joinEffect s).stu.soloMade = s.stu.soloMade
    ∧ (joinEffect s).stu.time = s.stu.time ∧ (joinEffect s).stu.boundaryTime = s.stu.boundaryTime
    ∧ (joinEffect s).stu.startSerial = s.stu.startSerial ∧ (joinEffect s).ru = s.ru ∧ (joinEffect s).mu = s.mu
    ∧ (joinEffect s).rcu = s.rcu ∧ (joinEffect s).hc.backlogReason = s.hc.backlogReason
    ∧ (joinEffect s).hc.freezeReason = s.hc.freezeReason ∧ (joinEffect s).hc.lastSent = s.hc.lastSent
    ∧ (joinEffect s).bac.line = s.bac.line ∧ (joinEffect s).bac.receiver = s.bac.receiver
    ∧ (joinEffect s).bac.inbound = s.bac.inbound ∧ (joinEffect s).bac.rosterItem = s.bac.rosterItem
    ∧ (joinEffect s).bac.scanItems = s.bac.scanItems ∧ (joinEffect s).bac.inTx = s.bac.inTx
    ∧ (joinEffect s).bac.backoff = s.bac.backoff ∧ (joinEffect s).bac.resetPending = s.bac.resetPending
    ∧ (joinEffect s).bac.idleTime = s.bac.idleTime ∧ (joinEffect s).spc = s.spc ∧ (joinEffect s).cs = s.cs
    ∧ (joinEffect s).hpu.events = s.hpu.events ∧ (joinEffect s).hpu.mask = s.hpu.mask
    ∧ (joinEffect s).hpu.counters = s.hpu.counters ∧ (joinEffect s).hpu.statSel = s.hpu.statSel
    ∧ (joinEffect s).hpu.statMode = s.hpu.statMode ∧ (joinEffect s).hpu.memberCopy = s.hpu.memberCopy
    ∧ (joinEffect s).hpu.mergeCopy = s.hpu.mergeCopy ∧ (joinEffect s).hpu.readWord = s.hpu.readWord
    ∧ (joinEffect s).hpu.resetnLow = s.hpu.resetnLow ∧ (joinEffect s).acu.joinScan = s.acu.joinScan
    ∧ (joinEffect s).acu.leaveScan = s.acu.leaveScan ∧ (joinEffect s).acu.refusalPending = s.acu.refusalPending
    ∧ (joinEffect s).acu.drain = s.acu.drain ∧ (joinEffect s).pending = s.pending
    ∧ (joinEffect s).pins = s.pins := by
  simp only [joinEffect, hostCommand, onPort]
  (repeat' split) <;> simp

@[simp] theorem leaveJoining_frame (s : State) :
    (leaveJoining s).stu.gateHigh = s.stu.gateHigh ∧ (leaveJoining s).stu.faultSeen = s.stu.faultSeen
    ∧ (leaveJoining s).stu.guard = s.stu.guard ∧ (leaveJoining s).stu.take = s.stu.take
    ∧ (leaveJoining s).stu.index = s.stu.index ∧ (leaveJoining s).stu.formed = s.stu.formed
    ∧ (leaveJoining s).stu.stallFlag = s.stu.stallFlag ∧ (leaveJoining s).stu.soloMade = s.stu.soloMade
    ∧ (leaveJoining s).stu.time = s.stu.time ∧ (leaveJoining s).stu.boundaryTime = s.stu.boundaryTime
    ∧ (leaveJoining s).stu.startSerial = s.stu.startSerial ∧ (leaveJoining s).ru.selector = s.ru.selector
    ∧ (leaveJoining s).ru.reports = s.ru.reports ∧ (leaveJoining s).mu = s.mu ∧ (leaveJoining s).rcu = s.rcu
    ∧ (leaveJoining s).hc = s.hc ∧ (leaveJoining s).bac.line = s.bac.line
    ∧ (leaveJoining s).bac.receiver = s.bac.receiver ∧ (leaveJoining s).bac.inbound = s.bac.inbound
    ∧ (leaveJoining s).bac.holdItem = s.bac.holdItem ∧ (leaveJoining s).bac.scanItems = s.bac.scanItems
    ∧ (leaveJoining s).bac.inTx = s.bac.inTx ∧ (leaveJoining s).bac.backoff = s.bac.backoff
    ∧ (leaveJoining s).bac.resetPending = s.bac.resetPending ∧ (leaveJoining s).bac.idleTime = s.bac.idleTime
    ∧ (leaveJoining s).spc.capture = s.spc.capture ∧ (leaveJoining s).spc.tag = s.spc.tag
    ∧ (leaveJoining s).spc.ready = s.spc.ready ∧ (leaveJoining s).spc.raw = s.spc.raw
    ∧ (leaveJoining s).spc.table = s.spc.table ∧ (leaveJoining s).spc.elapsed = s.spc.elapsed
    ∧ (leaveJoining s).cs = s.cs ∧ (leaveJoining s).hpu.transaction = s.hpu.transaction
    ∧ (leaveJoining s).hpu.mask = s.hpu.mask ∧ (leaveJoining s).hpu.result = s.hpu.result
    ∧ (leaveJoining s).hpu.lastCode = s.hpu.lastCode ∧ (leaveJoining s).hpu.counters = s.hpu.counters
    ∧ (leaveJoining s).hpu.statSel = s.hpu.statSel ∧ (leaveJoining s).hpu.statMode = s.hpu.statMode
    ∧ (leaveJoining s).hpu.memberCopy = s.hpu.memberCopy ∧ (leaveJoining s).hpu.mergeCopy = s.hpu.mergeCopy
    ∧ (leaveJoining s).hpu.readWord = s.hpu.readWord ∧ (leaveJoining s).hpu.resetnLow = s.hpu.resetnLow
    ∧ (leaveJoining s).acu.listen = s.acu.listen ∧ (leaveJoining s).acu.admission = s.acu.admission
    ∧ (leaveJoining s).acu.matchingSeen = s.acu.matchingSeen
    ∧ (leaveJoining s).acu.mismatchingSeen = s.acu.mismatchingSeen ∧ (leaveJoining s).acu.drain = s.acu.drain
    ∧ (leaveJoining s).acu.reason = s.acu.reason ∧ (leaveJoining s).pending = s.pending
    ∧ (leaveJoining s).pins = s.pins
    ∧ (leaveJoining s).spc.sdata = s.spc.sdata ∧ (leaveJoining s).spc.clocked = s.spc.clocked
    ∧ (leaveJoining s).spc.clockTime = s.spc.clockTime := by
  simp [leaveJoining]

@[simp] theorem leaveMember_frame (s : State) :
    (leaveMember s).stu.gateHigh = s.stu.gateHigh ∧ (leaveMember s).stu.faultSeen = s.stu.faultSeen
    ∧ (leaveMember s).stu.guard = s.stu.guard ∧ (leaveMember s).stu.take = s.stu.take
    ∧ (leaveMember s).stu.index = s.stu.index ∧ (leaveMember s).stu.formed = s.stu.formed
    ∧ (leaveMember s).stu.stallFlag = s.stu.stallFlag ∧ (leaveMember s).stu.soloMade = s.stu.soloMade
    ∧ (leaveMember s).stu.time = s.stu.time ∧ (leaveMember s).stu.boundaryTime = s.stu.boundaryTime
    ∧ (leaveMember s).stu.startSerial = s.stu.startSerial ∧ (leaveMember s).ru.selector = s.ru.selector
    ∧ (leaveMember s).ru.reports = s.ru.reports ∧ (leaveMember s).mu = s.mu ∧ (leaveMember s).rcu = s.rcu
    ∧ (leaveMember s).hc = s.hc ∧ (leaveMember s).bac.line = s.bac.line
    ∧ (leaveMember s).bac.receiver = s.bac.receiver ∧ (leaveMember s).bac.inbound = s.bac.inbound
    ∧ (leaveMember s).bac.holdItem = s.bac.holdItem ∧ (leaveMember s).bac.scanItems = s.bac.scanItems
    ∧ (leaveMember s).bac.inTx = s.bac.inTx ∧ (leaveMember s).bac.backoff = s.bac.backoff
    ∧ (leaveMember s).bac.resetPending = s.bac.resetPending ∧ (leaveMember s).bac.idleTime = s.bac.idleTime
    ∧ (leaveMember s).spc.capture = s.spc.capture ∧ (leaveMember s).spc.tag = s.spc.tag
    ∧ (leaveMember s).spc.ready = s.spc.ready ∧ (leaveMember s).spc.raw = s.spc.raw
    ∧ (leaveMember s).spc.table = s.spc.table ∧ (leaveMember s).spc.elapsed = s.spc.elapsed
    ∧ (leaveMember s).cs = s.cs ∧ (leaveMember s).hpu.transaction = s.hpu.transaction
    ∧ (leaveMember s).hpu.mask = s.hpu.mask ∧ (leaveMember s).hpu.result = s.hpu.result
    ∧ (leaveMember s).hpu.lastCode = s.hpu.lastCode ∧ (leaveMember s).hpu.counters = s.hpu.counters
    ∧ (leaveMember s).hpu.statSel = s.hpu.statSel ∧ (leaveMember s).hpu.statMode = s.hpu.statMode
    ∧ (leaveMember s).hpu.memberCopy = s.hpu.memberCopy ∧ (leaveMember s).hpu.mergeCopy = s.hpu.mergeCopy
    ∧ (leaveMember s).hpu.readWord = s.hpu.readWord ∧ (leaveMember s).hpu.resetnLow = s.hpu.resetnLow
    ∧ (leaveMember s).acu.joinScan = s.acu.joinScan ∧ (leaveMember s).acu.listen = s.acu.listen
    ∧ (leaveMember s).acu.admission = s.acu.admission ∧ (leaveMember s).acu.matchingSeen = s.acu.matchingSeen
    ∧ (leaveMember s).acu.mismatchingSeen = s.acu.mismatchingSeen
    ∧ (leaveMember s).acu.refusalPending = s.acu.refusalPending ∧ (leaveMember s).acu.drain = s.acu.drain
    ∧ (leaveMember s).acu.reason = s.acu.reason ∧ (leaveMember s).pending = s.pending
    ∧ (leaveMember s).pins = s.pins
    ∧ (leaveMember s).spc.sdata = s.spc.sdata ∧ (leaveMember s).spc.clocked = s.spc.clocked
    ∧ (leaveMember s).spc.clockTime = s.spc.clockTime := by
  simp [leaveMember]

@[simp] theorem takeLeave_frame (s : State) :
    (takeLeave s).stu.gateHigh = s.stu.gateHigh ∧ (takeLeave s).stu.faultSeen = s.stu.faultSeen
    ∧ (takeLeave s).stu.index = s.stu.index ∧ (takeLeave s).stu.formed = s.stu.formed
    ∧ (takeLeave s).stu.soloMade = s.stu.soloMade ∧ (takeLeave s).stu.time = s.stu.time
    ∧ (takeLeave s).stu.boundaryTime = s.stu.boundaryTime ∧ (takeLeave s).stu.startSerial = s.stu.startSerial
    ∧ (takeLeave s).ru.selector = s.ru.selector ∧ (takeLeave s).mu.suspended = s.mu.suspended
    ∧ (takeLeave s).mu.selector = s.mu.selector ∧ (takeLeave s).rcu.projFirst = s.rcu.projFirst
    ∧ (takeLeave s).rcu.projCount = s.rcu.projCount ∧ (takeLeave s).hc.freezeReason = s.hc.freezeReason
    ∧ (takeLeave s).hc.lastSent = s.hc.lastSent ∧ (takeLeave s).bac.line = s.bac.line
    ∧ (takeLeave s).bac.receiver = s.bac.receiver ∧ (takeLeave s).bac.inbound = s.bac.inbound
    ∧ (takeLeave s).bac.scanItems = s.bac.scanItems ∧ (takeLeave s).bac.inTx = s.bac.inTx
    ∧ (takeLeave s).bac.backoff = s.bac.backoff ∧ (takeLeave s).bac.resetPending = s.bac.resetPending
    ∧ (takeLeave s).bac.idleTime = s.bac.idleTime ∧ (takeLeave s).spc.capture = s.spc.capture
    ∧ (takeLeave s).spc.tag = s.spc.tag ∧ (takeLeave s).spc.ready = s.spc.ready ∧ (takeLeave s).spc.raw = s.spc.raw
    ∧ (takeLeave s).spc.table = s.spc.table ∧ (takeLeave s).spc.elapsed = s.spc.elapsed ∧ (takeLeave s).cs = s.cs
    ∧ (takeLeave s).hpu.transaction = s.hpu.transaction ∧ (takeLeave s).hpu.mask = s.hpu.mask
    ∧ (takeLeave s).hpu.lastCode = s.hpu.lastCode ∧ (takeLeave s).hpu.statSel = s.hpu.statSel
    ∧ (takeLeave s).hpu.statMode = s.hpu.statMode ∧ (takeLeave s).hpu.memberCopy = s.hpu.memberCopy
    ∧ (takeLeave s).hpu.mergeCopy = s.hpu.mergeCopy ∧ (takeLeave s).hpu.readWord = s.hpu.readWord
    ∧ (takeLeave s).hpu.resetnLow = s.hpu.resetnLow ∧ (takeLeave s).acu.reason = s.acu.reason
    ∧ (takeLeave s).pending = s.pending
    ∧ (takeLeave s).pins = s.pins
    ∧ (takeLeave s).spc.sdata = s.spc.sdata ∧ (takeLeave s).spc.clocked = s.spc.clocked
    ∧ (takeLeave s).spc.clockTime = s.spc.clockTime := by
  simp only [takeLeave]
  (repeat' split) <;> simp

@[simp] theorem leaveEffect_frame (s : State) :
    (leaveEffect s).stu.gateHigh = s.stu.gateHigh ∧ (leaveEffect s).stu.faultSeen = s.stu.faultSeen
    ∧ (leaveEffect s).stu.index = s.stu.index ∧ (leaveEffect s).stu.formed = s.stu.formed
    ∧ (leaveEffect s).stu.soloMade = s.stu.soloMade ∧ (leaveEffect s).stu.time = s.stu.time
    ∧ (leaveEffect s).stu.boundaryTime = s.stu.boundaryTime ∧ (leaveEffect s).stu.startSerial = s.stu.startSerial
    ∧ (leaveEffect s).ru.selector = s.ru.selector ∧ (leaveEffect s).mu.suspended = s.mu.suspended
    ∧ (leaveEffect s).mu.selector = s.mu.selector ∧ (leaveEffect s).rcu.projFirst = s.rcu.projFirst
    ∧ (leaveEffect s).rcu.projCount = s.rcu.projCount ∧ (leaveEffect s).hc.freezeReason = s.hc.freezeReason
    ∧ (leaveEffect s).hc.lastSent = s.hc.lastSent ∧ (leaveEffect s).bac.line = s.bac.line
    ∧ (leaveEffect s).bac.receiver = s.bac.receiver ∧ (leaveEffect s).bac.inbound = s.bac.inbound
    ∧ (leaveEffect s).bac.scanItems = s.bac.scanItems ∧ (leaveEffect s).bac.inTx = s.bac.inTx
    ∧ (leaveEffect s).bac.backoff = s.bac.backoff ∧ (leaveEffect s).bac.resetPending = s.bac.resetPending
    ∧ (leaveEffect s).bac.idleTime = s.bac.idleTime ∧ (leaveEffect s).spc.capture = s.spc.capture
    ∧ (leaveEffect s).spc.tag = s.spc.tag ∧ (leaveEffect s).spc.ready = s.spc.ready
    ∧ (leaveEffect s).spc.raw = s.spc.raw ∧ (leaveEffect s).spc.table = s.spc.table
    ∧ (leaveEffect s).spc.elapsed = s.spc.elapsed ∧ (leaveEffect s).cs = s.cs ∧ (leaveEffect s).hpu.mask = s.hpu.mask
    ∧ (leaveEffect s).hpu.statSel = s.hpu.statSel ∧ (leaveEffect s).hpu.statMode = s.hpu.statMode
    ∧ (leaveEffect s).hpu.memberCopy = s.hpu.memberCopy ∧ (leaveEffect s).hpu.mergeCopy = s.hpu.mergeCopy
    ∧ (leaveEffect s).hpu.readWord = s.hpu.readWord ∧ (leaveEffect s).hpu.resetnLow = s.hpu.resetnLow
    ∧ (leaveEffect s).acu.reason = s.acu.reason ∧ (leaveEffect s).pending = s.pending
    ∧ (leaveEffect s).pins = s.pins
    ∧ (leaveEffect s).spc.sdata = s.spc.sdata ∧ (leaveEffect s).spc.clocked = s.spc.clocked
    ∧ (leaveEffect s).spc.clockTime = s.spc.clockTime := by
  simp only [leaveEffect, hostCommand, onPort]
  (repeat' split) <;> simp

@[simp] theorem joinAnnouncement_frame (k : NodeId) (j : Scan) (s : State) :
    (joinAnnouncement k j s).stu = s.stu ∧ (joinAnnouncement k j s).ru.selector = s.ru.selector
    ∧ (joinAnnouncement k j s).ru.reports = s.ru.reports ∧ (joinAnnouncement k j s).mu = s.mu
    ∧ (joinAnnouncement k j s).rcu = s.rcu ∧ (joinAnnouncement k j s).hc = s.hc ∧ (joinAnnouncement k j s).bac = s.bac
    ∧ (joinAnnouncement k j s).spc = s.spc ∧ (joinAnnouncement k j s).cs = s.cs
    ∧ (joinAnnouncement k j s).hpu.transaction = s.hpu.transaction ∧ (joinAnnouncement k j s).hpu.mask = s.hpu.mask
    ∧ (joinAnnouncement k j s).hpu.result = s.hpu.result ∧ (joinAnnouncement k j s).hpu.lastCode = s.hpu.lastCode
    ∧ (joinAnnouncement k j s).hpu.statSel = s.hpu.statSel ∧ (joinAnnouncement k j s).hpu.statMode = s.hpu.statMode
    ∧ (joinAnnouncement k j s).hpu.memberCopy = s.hpu.memberCopy
    ∧ (joinAnnouncement k j s).hpu.mergeCopy = s.hpu.mergeCopy
    ∧ (joinAnnouncement k j s).hpu.readWord = s.hpu.readWord
    ∧ (joinAnnouncement k j s).hpu.resetnLow = s.hpu.resetnLow ∧ (joinAnnouncement k j s).acu = s.acu
    ∧ (joinAnnouncement k j s).pending = s.pending
    ∧ (joinAnnouncement k j s).pins = s.pins := by
  simp only [joinAnnouncement]
  (repeat' split) <;> simp

@[simp] theorem leaveAnnouncement_frame (k : NodeId) (l : Scan) (s : State) :
    (leaveAnnouncement k l s).stu = s.stu ∧ (leaveAnnouncement k l s).ru.selector = s.ru.selector
    ∧ (leaveAnnouncement k l s).ru.reports = s.ru.reports ∧ (leaveAnnouncement k l s).mu = s.mu
    ∧ (leaveAnnouncement k l s).rcu = s.rcu ∧ (leaveAnnouncement k l s).hc = s.hc
    ∧ (leaveAnnouncement k l s).bac = s.bac ∧ (leaveAnnouncement k l s).spc = s.spc
    ∧ (leaveAnnouncement k l s).cs = s.cs ∧ (leaveAnnouncement k l s).hpu = s.hpu
    ∧ (leaveAnnouncement k l s).acu = s.acu ∧ (leaveAnnouncement k l s).pending = s.pending
    ∧ (leaveAnnouncement k l s).pins = s.pins := by
  simp only [leaveAnnouncement]
  (repeat' split) <;> simp

@[simp] theorem takeAnnouncement_frame (r : Roster) (s : State) :
    (takeAnnouncement r s).stu = s.stu ∧ (takeAnnouncement r s).ru.selector = s.ru.selector
    ∧ (takeAnnouncement r s).ru.reports = s.ru.reports ∧ (takeAnnouncement r s).mu = s.mu
    ∧ (takeAnnouncement r s).rcu = s.rcu ∧ (takeAnnouncement r s).hc = s.hc ∧ (takeAnnouncement r s).bac = s.bac
    ∧ (takeAnnouncement r s).spc = s.spc ∧ (takeAnnouncement r s).cs = s.cs
    ∧ (takeAnnouncement r s).hpu.transaction = s.hpu.transaction ∧ (takeAnnouncement r s).hpu.mask = s.hpu.mask
    ∧ (takeAnnouncement r s).hpu.result = s.hpu.result ∧ (takeAnnouncement r s).hpu.lastCode = s.hpu.lastCode
    ∧ (takeAnnouncement r s).hpu.statSel = s.hpu.statSel ∧ (takeAnnouncement r s).hpu.statMode = s.hpu.statMode
    ∧ (takeAnnouncement r s).hpu.memberCopy = s.hpu.memberCopy
    ∧ (takeAnnouncement r s).hpu.mergeCopy = s.hpu.mergeCopy ∧ (takeAnnouncement r s).hpu.readWord = s.hpu.readWord
    ∧ (takeAnnouncement r s).hpu.resetnLow = s.hpu.resetnLow ∧ (takeAnnouncement r s).acu = s.acu
    ∧ (takeAnnouncement r s).pending = s.pending
    ∧ (takeAnnouncement r s).pins = s.pins := by
  simp only [takeAnnouncement]
  (repeat' split) <;> simp

@[simp] theorem rejoin_frame (s : State) :
    (rejoin s).stu.gateHigh = s.stu.gateHigh ∧ (rejoin s).stu.faultSeen = s.stu.faultSeen
    ∧ (rejoin s).stu.guard = s.stu.guard ∧ (rejoin s).stu.take = s.stu.take ∧ (rejoin s).stu.index = s.stu.index
    ∧ (rejoin s).stu.period = s.stu.period ∧ (rejoin s).stu.formed = s.stu.formed
    ∧ (rejoin s).stu.stallFlag = s.stu.stallFlag ∧ (rejoin s).stu.solo = s.stu.solo
    ∧ (rejoin s).stu.soloMade = s.stu.soloMade ∧ (rejoin s).stu.time = s.stu.time
    ∧ (rejoin s).stu.boundaryTime = s.stu.boundaryTime ∧ (rejoin s).stu.startSerial = s.stu.startSerial
    ∧ (rejoin s).ru.selector = s.ru.selector ∧ (rejoin s).ru.reports = s.ru.reports ∧ (rejoin s).mu = s.mu
    ∧ (rejoin s).rcu = s.rcu ∧ (rejoin s).hc = s.hc ∧ (rejoin s).bac.line = s.bac.line
    ∧ (rejoin s).bac.receiver = s.bac.receiver ∧ (rejoin s).bac.inbound = s.bac.inbound
    ∧ (rejoin s).bac.holdItem = s.bac.holdItem ∧ (rejoin s).bac.scanItems = s.bac.scanItems
    ∧ (rejoin s).bac.inTx = s.bac.inTx ∧ (rejoin s).bac.backoff = s.bac.backoff
    ∧ (rejoin s).bac.resetPending = s.bac.resetPending ∧ (rejoin s).bac.idleTime = s.bac.idleTime
    ∧ (rejoin s).spc = s.spc ∧ (rejoin s).cs = s.cs ∧ (rejoin s).hpu = s.hpu
    ∧ (rejoin s).acu.leaveScan = s.acu.leaveScan ∧ (rejoin s).acu.listen = s.acu.listen
    ∧ (rejoin s).acu.admission = s.acu.admission ∧ (rejoin s).acu.matchingSeen = s.acu.matchingSeen
    ∧ (rejoin s).acu.mismatchingSeen = s.acu.mismatchingSeen ∧ (rejoin s).acu.drain = s.acu.drain
    ∧ (rejoin s).acu.reason = s.acu.reason ∧ (rejoin s).pending = s.pending
    ∧ (rejoin s).pins = s.pins := by
  simp [rejoin]

@[simp] theorem selfDropTest_frame (r : Roster) (s : State) :
    (selfDropTest r s).stu.gateHigh = s.stu.gateHigh ∧ (selfDropTest r s).stu.faultSeen = s.stu.faultSeen
    ∧ (selfDropTest r s).stu.guard = s.stu.guard ∧ (selfDropTest r s).stu.take = s.stu.take
    ∧ (selfDropTest r s).stu.index = s.stu.index ∧ (selfDropTest r s).stu.period = s.stu.period
    ∧ (selfDropTest r s).stu.formed = s.stu.formed ∧ (selfDropTest r s).stu.stallFlag = s.stu.stallFlag
    ∧ (selfDropTest r s).stu.solo = s.stu.solo ∧ (selfDropTest r s).stu.soloMade = s.stu.soloMade
    ∧ (selfDropTest r s).stu.time = s.stu.time ∧ (selfDropTest r s).stu.boundaryTime = s.stu.boundaryTime
    ∧ (selfDropTest r s).stu.startSerial = s.stu.startSerial ∧ (selfDropTest r s).ru.selector = s.ru.selector
    ∧ (selfDropTest r s).ru.reports = s.ru.reports ∧ (selfDropTest r s).mu = s.mu ∧ (selfDropTest r s).rcu = s.rcu
    ∧ (selfDropTest r s).hc = s.hc ∧ (selfDropTest r s).bac.line = s.bac.line
    ∧ (selfDropTest r s).bac.receiver = s.bac.receiver ∧ (selfDropTest r s).bac.inbound = s.bac.inbound
    ∧ (selfDropTest r s).bac.holdItem = s.bac.holdItem ∧ (selfDropTest r s).bac.scanItems = s.bac.scanItems
    ∧ (selfDropTest r s).bac.inTx = s.bac.inTx ∧ (selfDropTest r s).bac.backoff = s.bac.backoff
    ∧ (selfDropTest r s).bac.resetPending = s.bac.resetPending ∧ (selfDropTest r s).bac.idleTime = s.bac.idleTime
    ∧ (selfDropTest r s).spc = s.spc ∧ (selfDropTest r s).cs = s.cs
    ∧ (selfDropTest r s).hpu.transaction = s.hpu.transaction ∧ (selfDropTest r s).hpu.mask = s.hpu.mask
    ∧ (selfDropTest r s).hpu.result = s.hpu.result ∧ (selfDropTest r s).hpu.lastCode = s.hpu.lastCode
    ∧ (selfDropTest r s).hpu.counters = s.hpu.counters ∧ (selfDropTest r s).hpu.statSel = s.hpu.statSel
    ∧ (selfDropTest r s).hpu.statMode = s.hpu.statMode ∧ (selfDropTest r s).hpu.memberCopy = s.hpu.memberCopy
    ∧ (selfDropTest r s).hpu.mergeCopy = s.hpu.mergeCopy ∧ (selfDropTest r s).hpu.readWord = s.hpu.readWord
    ∧ (selfDropTest r s).hpu.resetnLow = s.hpu.resetnLow ∧ (selfDropTest r s).acu.leaveScan = s.acu.leaveScan
    ∧ (selfDropTest r s).acu.listen = s.acu.listen ∧ (selfDropTest r s).acu.admission = s.acu.admission
    ∧ (selfDropTest r s).acu.matchingSeen = s.acu.matchingSeen
    ∧ (selfDropTest r s).acu.mismatchingSeen = s.acu.mismatchingSeen ∧ (selfDropTest r s).acu.drain = s.acu.drain
    ∧ (selfDropTest r s).acu.reason = s.acu.reason ∧ (selfDropTest r s).pending = s.pending
    ∧ (selfDropTest r s).pins = s.pins := by
  simp only [selfDropTest]
  (repeat' split) <;> simp

@[simp] theorem takeRoster_frame (r : Roster) (s : State) :
    (takeRoster r s).stu.gateHigh = s.stu.gateHigh ∧ (takeRoster r s).stu.faultSeen = s.stu.faultSeen
    ∧ (takeRoster r s).stu.formed = s.stu.formed ∧ (takeRoster r s).stu.solo = s.stu.solo
    ∧ (takeRoster r s).stu.soloMade = s.stu.soloMade ∧ (takeRoster r s).stu.time = s.stu.time
    ∧ (takeRoster r s).stu.boundaryTime = s.stu.boundaryTime ∧ (takeRoster r s).stu.startSerial = s.stu.startSerial
    ∧ (takeRoster r s).ru.selector = s.ru.selector ∧ (takeRoster r s).mu.suspended = s.mu.suspended
    ∧ (takeRoster r s).mu.selector = s.mu.selector ∧ (takeRoster r s).rcu.projFirst = s.rcu.projFirst
    ∧ (takeRoster r s).rcu.projCount = s.rcu.projCount ∧ (takeRoster r s).hc.freezeReason = s.hc.freezeReason
    ∧ (takeRoster r s).hc.lastSent = s.hc.lastSent ∧ (takeRoster r s).bac.line = s.bac.line
    ∧ (takeRoster r s).bac.receiver = s.bac.receiver ∧ (takeRoster r s).bac.inbound = s.bac.inbound
    ∧ (takeRoster r s).bac.backoff = s.bac.backoff ∧ (takeRoster r s).bac.resetPending = s.bac.resetPending
    ∧ (takeRoster r s).bac.idleTime = s.bac.idleTime ∧ (takeRoster r s).spc = s.spc ∧ (takeRoster r s).cs = s.cs
    ∧ (takeRoster r s).hpu.transaction = s.hpu.transaction ∧ (takeRoster r s).hpu.mask = s.hpu.mask
    ∧ (takeRoster r s).hpu.result = s.hpu.result ∧ (takeRoster r s).hpu.lastCode = s.hpu.lastCode
    ∧ (takeRoster r s).hpu.statSel = s.hpu.statSel ∧ (takeRoster r s).hpu.statMode = s.hpu.statMode
    ∧ (takeRoster r s).hpu.memberCopy = s.hpu.memberCopy ∧ (takeRoster r s).hpu.mergeCopy = s.hpu.mergeCopy
    ∧ (takeRoster r s).hpu.readWord = s.hpu.readWord ∧ (takeRoster r s).hpu.resetnLow = s.hpu.resetnLow
    ∧ (takeRoster r s).acu.reason = s.acu.reason ∧ (takeRoster r s).pending = s.pending
    ∧ (takeRoster r s).pins = s.pins := by
  simp only [takeRoster]
  (repeat' split) <;> simp

@[simp] theorem rosterTakenEffect_frame (s : State) :
    (rosterTakenEffect s).stu.gateHigh = s.stu.gateHigh ∧ (rosterTakenEffect s).stu.faultSeen = s.stu.faultSeen
    ∧ (rosterTakenEffect s).stu.formed = s.stu.formed ∧ (rosterTakenEffect s).stu.solo = s.stu.solo
    ∧ (rosterTakenEffect s).stu.soloMade = s.stu.soloMade ∧ (rosterTakenEffect s).stu.time = s.stu.time
    ∧ (rosterTakenEffect s).stu.boundaryTime = s.stu.boundaryTime
    ∧ (rosterTakenEffect s).stu.startSerial = s.stu.startSerial ∧ (rosterTakenEffect s).ru.selector = s.ru.selector
    ∧ (rosterTakenEffect s).mu.suspended = s.mu.suspended ∧ (rosterTakenEffect s).mu.selector = s.mu.selector
    ∧ (rosterTakenEffect s).rcu.projFirst = s.rcu.projFirst ∧ (rosterTakenEffect s).rcu.projCount = s.rcu.projCount
    ∧ (rosterTakenEffect s).hc.freezeReason = s.hc.freezeReason ∧ (rosterTakenEffect s).hc.lastSent = s.hc.lastSent
    ∧ (rosterTakenEffect s).bac.line = s.bac.line ∧ (rosterTakenEffect s).bac.receiver = s.bac.receiver
    ∧ (rosterTakenEffect s).bac.backoff = s.bac.backoff ∧ (rosterTakenEffect s).bac.resetPending = s.bac.resetPending
    ∧ (rosterTakenEffect s).bac.idleTime = s.bac.idleTime ∧ (rosterTakenEffect s).spc = s.spc
    ∧ (rosterTakenEffect s).cs = s.cs ∧ (rosterTakenEffect s).hpu.transaction = s.hpu.transaction
    ∧ (rosterTakenEffect s).hpu.mask = s.hpu.mask ∧ (rosterTakenEffect s).hpu.result = s.hpu.result
    ∧ (rosterTakenEffect s).hpu.lastCode = s.hpu.lastCode ∧ (rosterTakenEffect s).hpu.statSel = s.hpu.statSel
    ∧ (rosterTakenEffect s).hpu.statMode = s.hpu.statMode ∧ (rosterTakenEffect s).hpu.memberCopy = s.hpu.memberCopy
    ∧ (rosterTakenEffect s).hpu.mergeCopy = s.hpu.mergeCopy ∧ (rosterTakenEffect s).hpu.readWord = s.hpu.readWord
    ∧ (rosterTakenEffect s).hpu.resetnLow = s.hpu.resetnLow ∧ (rosterTakenEffect s).acu.reason = s.acu.reason
    ∧ (rosterTakenEffect s).pending = s.pending
    ∧ (rosterTakenEffect s).pins = s.pins := by
  simp only [rosterTakenEffect]
  (repeat' split) <;> simp

@[simp] theorem setHold_frame (k : NodeId) (m : Member) (q : BitVec 16) (s : State) :
    (setHold k m q s).stu.gate = s.stu.gate ∧ (setHold k m q s).stu.gateHigh = s.stu.gateHigh
    ∧ (setHold k m q s).stu.faultSeen = s.stu.faultSeen ∧ (setHold k m q s).stu.guard = s.stu.guard
    ∧ (setHold k m q s).stu.take = s.stu.take ∧ (setHold k m q s).stu.index = s.stu.index
    ∧ (setHold k m q s).stu.period = s.stu.period ∧ (setHold k m q s).stu.formed = s.stu.formed
    ∧ (setHold k m q s).stu.stallFlag = s.stu.stallFlag ∧ (setHold k m q s).stu.solo = s.stu.solo
    ∧ (setHold k m q s).stu.soloMade = s.stu.soloMade ∧ (setHold k m q s).stu.time = s.stu.time
    ∧ (setHold k m q s).stu.boundaryTime = s.stu.boundaryTime ∧ (setHold k m q s).stu.startSerial = s.stu.startSerial
    ∧ (setHold k m q s).ru.selector = s.ru.selector ∧ (setHold k m q s).ru.reports = s.ru.reports
    ∧ (setHold k m q s).mu = s.mu ∧ (setHold k m q s).rcu = s.rcu ∧ (setHold k m q s).hc = s.hc
    ∧ (setHold k m q s).bac = s.bac ∧ (setHold k m q s).spc = s.spc ∧ (setHold k m q s).cs = s.cs
    ∧ (setHold k m q s).hpu = s.hpu ∧ (setHold k m q s).acu = s.acu ∧ (setHold k m q s).pending = s.pending
    ∧ (setHold k m q s).pins = s.pins := by
  simp only [setHold]
  (repeat' split) <;> simp

@[simp] theorem takeHold_frame (k : NodeId) (q : BitVec 16) (s : State) :
    (takeHold k q s).stu.gate = s.stu.gate ∧ (takeHold k q s).stu.gateHigh = s.stu.gateHigh
    ∧ (takeHold k q s).stu.faultSeen = s.stu.faultSeen ∧ (takeHold k q s).stu.guard = s.stu.guard
    ∧ (takeHold k q s).stu.take = s.stu.take ∧ (takeHold k q s).stu.index = s.stu.index
    ∧ (takeHold k q s).stu.period = s.stu.period ∧ (takeHold k q s).stu.formed = s.stu.formed
    ∧ (takeHold k q s).stu.stallFlag = s.stu.stallFlag ∧ (takeHold k q s).stu.solo = s.stu.solo
    ∧ (takeHold k q s).stu.soloMade = s.stu.soloMade ∧ (takeHold k q s).stu.time = s.stu.time
    ∧ (takeHold k q s).stu.boundaryTime = s.stu.boundaryTime ∧ (takeHold k q s).stu.startSerial = s.stu.startSerial
    ∧ (takeHold k q s).ru.selector = s.ru.selector ∧ (takeHold k q s).ru.reports = s.ru.reports
    ∧ (takeHold k q s).mu = s.mu ∧ (takeHold k q s).rcu = s.rcu ∧ (takeHold k q s).hc = s.hc
    ∧ (takeHold k q s).bac = s.bac ∧ (takeHold k q s).spc = s.spc ∧ (takeHold k q s).cs = s.cs
    ∧ (takeHold k q s).hpu.transaction = s.hpu.transaction ∧ (takeHold k q s).hpu.events = s.hpu.events
    ∧ (takeHold k q s).hpu.mask = s.hpu.mask ∧ (takeHold k q s).hpu.result = s.hpu.result
    ∧ (takeHold k q s).hpu.lastCode = s.hpu.lastCode ∧ (takeHold k q s).hpu.statSel = s.hpu.statSel
    ∧ (takeHold k q s).hpu.statMode = s.hpu.statMode ∧ (takeHold k q s).hpu.memberCopy = s.hpu.memberCopy
    ∧ (takeHold k q s).hpu.mergeCopy = s.hpu.mergeCopy ∧ (takeHold k q s).hpu.readWord = s.hpu.readWord
    ∧ (takeHold k q s).hpu.resetnLow = s.hpu.resetnLow ∧ (takeHold k q s).acu = s.acu
    ∧ (takeHold k q s).pending = s.pending
    ∧ (takeHold k q s).pins = s.pins := by
  simp only [takeHold]
  (repeat' split) <;> simp

@[simp] theorem holdTakenEffect_frame (s : State) :
    (holdTakenEffect s).stu.gate = s.stu.gate ∧ (holdTakenEffect s).stu.gateHigh = s.stu.gateHigh
    ∧ (holdTakenEffect s).stu.faultSeen = s.stu.faultSeen ∧ (holdTakenEffect s).stu.guard = s.stu.guard
    ∧ (holdTakenEffect s).stu.take = s.stu.take ∧ (holdTakenEffect s).stu.index = s.stu.index
    ∧ (holdTakenEffect s).stu.period = s.stu.period ∧ (holdTakenEffect s).stu.formed = s.stu.formed
    ∧ (holdTakenEffect s).stu.stallFlag = s.stu.stallFlag ∧ (holdTakenEffect s).stu.solo = s.stu.solo
    ∧ (holdTakenEffect s).stu.soloMade = s.stu.soloMade ∧ (holdTakenEffect s).stu.time = s.stu.time
    ∧ (holdTakenEffect s).stu.boundaryTime = s.stu.boundaryTime
    ∧ (holdTakenEffect s).stu.startSerial = s.stu.startSerial ∧ (holdTakenEffect s).ru.selector = s.ru.selector
    ∧ (holdTakenEffect s).ru.reports = s.ru.reports ∧ (holdTakenEffect s).mu = s.mu ∧ (holdTakenEffect s).rcu = s.rcu
    ∧ (holdTakenEffect s).hc = s.hc ∧ (holdTakenEffect s).bac.line = s.bac.line
    ∧ (holdTakenEffect s).bac.receiver = s.bac.receiver ∧ (holdTakenEffect s).bac.transmitter = s.bac.transmitter
    ∧ (holdTakenEffect s).bac.holdItem = s.bac.holdItem ∧ (holdTakenEffect s).bac.rosterItem = s.bac.rosterItem
    ∧ (holdTakenEffect s).bac.scanItems = s.bac.scanItems ∧ (holdTakenEffect s).bac.inTx = s.bac.inTx
    ∧ (holdTakenEffect s).bac.busyMark = s.bac.busyMark ∧ (holdTakenEffect s).bac.backoff = s.bac.backoff
    ∧ (holdTakenEffect s).bac.resetPending = s.bac.resetPending ∧ (holdTakenEffect s).bac.idleTime = s.bac.idleTime
    ∧ (holdTakenEffect s).spc = s.spc ∧ (holdTakenEffect s).cs = s.cs
    ∧ (holdTakenEffect s).hpu.transaction = s.hpu.transaction ∧ (holdTakenEffect s).hpu.events = s.hpu.events
    ∧ (holdTakenEffect s).hpu.mask = s.hpu.mask ∧ (holdTakenEffect s).hpu.result = s.hpu.result
    ∧ (holdTakenEffect s).hpu.lastCode = s.hpu.lastCode ∧ (holdTakenEffect s).hpu.statSel = s.hpu.statSel
    ∧ (holdTakenEffect s).hpu.statMode = s.hpu.statMode ∧ (holdTakenEffect s).hpu.memberCopy = s.hpu.memberCopy
    ∧ (holdTakenEffect s).hpu.mergeCopy = s.hpu.mergeCopy ∧ (holdTakenEffect s).hpu.readWord = s.hpu.readWord
    ∧ (holdTakenEffect s).hpu.resetnLow = s.hpu.resetnLow ∧ (holdTakenEffect s).acu = s.acu
    ∧ (holdTakenEffect s).pending = s.pending
    ∧ (holdTakenEffect s).pins = s.pins := by
  simp only [holdTakenEffect]
  (repeat' split) <;> simp

@[simp] theorem holdCountdownExpiryEffect_frame (k : NodeId) (s : State) :
    (holdCountdownExpiryEffect k s).stu.gate = s.stu.gate
    ∧ (holdCountdownExpiryEffect k s).stu.gateHigh = s.stu.gateHigh
    ∧ (holdCountdownExpiryEffect k s).stu.faultSeen = s.stu.faultSeen
    ∧ (holdCountdownExpiryEffect k s).stu.guard = s.stu.guard ∧ (holdCountdownExpiryEffect k s).stu.take = s.stu.take
    ∧ (holdCountdownExpiryEffect k s).stu.index = s.stu.index
    ∧ (holdCountdownExpiryEffect k s).stu.period = s.stu.period
    ∧ (holdCountdownExpiryEffect k s).stu.formed = s.stu.formed
    ∧ (holdCountdownExpiryEffect k s).stu.stallFlag = s.stu.stallFlag
    ∧ (holdCountdownExpiryEffect k s).stu.solo = s.stu.solo
    ∧ (holdCountdownExpiryEffect k s).stu.soloMade = s.stu.soloMade
    ∧ (holdCountdownExpiryEffect k s).stu.time = s.stu.time
    ∧ (holdCountdownExpiryEffect k s).stu.boundaryTime = s.stu.boundaryTime
    ∧ (holdCountdownExpiryEffect k s).stu.startSerial = s.stu.startSerial
    ∧ (holdCountdownExpiryEffect k s).ru.selector = s.ru.selector
    ∧ (holdCountdownExpiryEffect k s).ru.reports = s.ru.reports ∧ (holdCountdownExpiryEffect k s).mu = s.mu
    ∧ (holdCountdownExpiryEffect k s).rcu = s.rcu ∧ (holdCountdownExpiryEffect k s).hc = s.hc
    ∧ (holdCountdownExpiryEffect k s).bac = s.bac ∧ (holdCountdownExpiryEffect k s).spc = s.spc
    ∧ (holdCountdownExpiryEffect k s).cs = s.cs ∧ (holdCountdownExpiryEffect k s).hpu = s.hpu
    ∧ (holdCountdownExpiryEffect k s).acu = s.acu ∧ (holdCountdownExpiryEffect k s).pending = s.pending
    ∧ (holdCountdownExpiryEffect k s).pins = s.pins := by
  simp only [holdCountdownExpiryEffect]
  (repeat' split) <;> simp

@[simp] theorem missReportEffect_frame (s : State) :
    (missReportEffect s).stu.gate = s.stu.gate ∧ (missReportEffect s).stu.gateHigh = s.stu.gateHigh
    ∧ (missReportEffect s).stu.faultSeen = s.stu.faultSeen ∧ (missReportEffect s).stu.guard = s.stu.guard
    ∧ (missReportEffect s).stu.take = s.stu.take ∧ (missReportEffect s).stu.index = s.stu.index
    ∧ (missReportEffect s).stu.period = s.stu.period ∧ (missReportEffect s).stu.formed = s.stu.formed
    ∧ (missReportEffect s).stu.stallFlag = s.stu.stallFlag ∧ (missReportEffect s).stu.solo = s.stu.solo
    ∧ (missReportEffect s).stu.soloMade = s.stu.soloMade ∧ (missReportEffect s).stu.time = s.stu.time
    ∧ (missReportEffect s).stu.boundaryTime = s.stu.boundaryTime
    ∧ (missReportEffect s).stu.startSerial = s.stu.startSerial ∧ (missReportEffect s).ru.selector = s.ru.selector
    ∧ (missReportEffect s).mu = s.mu ∧ (missReportEffect s).rcu = s.rcu ∧ (missReportEffect s).hc = s.hc
    ∧ (missReportEffect s).bac = s.bac ∧ (missReportEffect s).spc = s.spc ∧ (missReportEffect s).cs = s.cs
    ∧ (missReportEffect s).hpu.transaction = s.hpu.transaction ∧ (missReportEffect s).hpu.mask = s.hpu.mask
    ∧ (missReportEffect s).hpu.result = s.hpu.result ∧ (missReportEffect s).hpu.lastCode = s.hpu.lastCode
    ∧ (missReportEffect s).hpu.counters = s.hpu.counters ∧ (missReportEffect s).hpu.statSel = s.hpu.statSel
    ∧ (missReportEffect s).hpu.statMode = s.hpu.statMode ∧ (missReportEffect s).hpu.memberCopy = s.hpu.memberCopy
    ∧ (missReportEffect s).hpu.mergeCopy = s.hpu.mergeCopy ∧ (missReportEffect s).hpu.readWord = s.hpu.readWord
    ∧ (missReportEffect s).hpu.resetnLow = s.hpu.resetnLow ∧ (missReportEffect s).acu = s.acu
    ∧ (missReportEffect s).pending = s.pending
    ∧ (missReportEffect s).pins = s.pins := by
  simp only [missReportEffect]
  (repeat' split) <;> simp

@[simp] theorem renewalExpiryEffect_frame (s : State) :
    (renewalExpiryEffect s).stu = s.stu ∧ (renewalExpiryEffect s).ru = s.ru ∧ (renewalExpiryEffect s).mu = s.mu
    ∧ (renewalExpiryEffect s).rcu = s.rcu ∧ (renewalExpiryEffect s).hc.backlogReason = s.hc.backlogReason
    ∧ (renewalExpiryEffect s).hc.freezeReason = s.hc.freezeReason
    ∧ (renewalExpiryEffect s).hc.selfHold = s.hc.selfHold ∧ (renewalExpiryEffect s).hc.lastSent = s.hc.lastSent
    ∧ (renewalExpiryEffect s).bac.line = s.bac.line ∧ (renewalExpiryEffect s).bac.receiver = s.bac.receiver
    ∧ (renewalExpiryEffect s).bac.inbound = s.bac.inbound ∧ (renewalExpiryEffect s).bac.rosterItem = s.bac.rosterItem
    ∧ (renewalExpiryEffect s).bac.scanItems = s.bac.scanItems ∧ (renewalExpiryEffect s).bac.inTx = s.bac.inTx
    ∧ (renewalExpiryEffect s).bac.backoff = s.bac.backoff
    ∧ (renewalExpiryEffect s).bac.resetPending = s.bac.resetPending
    ∧ (renewalExpiryEffect s).bac.idleTime = s.bac.idleTime ∧ (renewalExpiryEffect s).spc = s.spc
    ∧ (renewalExpiryEffect s).cs = s.cs ∧ (renewalExpiryEffect s).hpu = s.hpu ∧ (renewalExpiryEffect s).acu = s.acu
    ∧ (renewalExpiryEffect s).pending = s.pending
    ∧ (renewalExpiryEffect s).pins = s.pins := by
  simp only [renewalExpiryEffect]
  (repeat' split) <;> simp

@[simp] theorem freezeChangeEffect_frame (high : Bool) (s : State) :
    (freezeChangeEffect high s).stu.gateHigh = s.stu.gateHigh
    ∧ (freezeChangeEffect high s).stu.faultSeen = s.stu.faultSeen
    ∧ (freezeChangeEffect high s).stu.guard = s.stu.guard ∧ (freezeChangeEffect high s).stu.take = s.stu.take
    ∧ (freezeChangeEffect high s).stu.index = s.stu.index ∧ (freezeChangeEffect high s).stu.period = s.stu.period
    ∧ (freezeChangeEffect high s).stu.formed = s.stu.formed
    ∧ (freezeChangeEffect high s).stu.stallFlag = s.stu.stallFlag ∧ (freezeChangeEffect high s).stu.solo = s.stu.solo
    ∧ (freezeChangeEffect high s).stu.soloMade = s.stu.soloMade ∧ (freezeChangeEffect high s).stu.time = s.stu.time
    ∧ (freezeChangeEffect high s).stu.boundaryTime = s.stu.boundaryTime
    ∧ (freezeChangeEffect high s).stu.startSerial = s.stu.startSerial ∧ (freezeChangeEffect high s).ru = s.ru
    ∧ (freezeChangeEffect high s).mu = s.mu ∧ (freezeChangeEffect high s).rcu = s.rcu
    ∧ (freezeChangeEffect high s).hc.backlogReason = s.hc.backlogReason
    ∧ (freezeChangeEffect high s).hc.lastSent = s.hc.lastSent ∧ (freezeChangeEffect high s).bac.line = s.bac.line
    ∧ (freezeChangeEffect high s).bac.receiver = s.bac.receiver
    ∧ (freezeChangeEffect high s).bac.inbound = s.bac.inbound
    ∧ (freezeChangeEffect high s).bac.rosterItem = s.bac.rosterItem
    ∧ (freezeChangeEffect high s).bac.scanItems = s.bac.scanItems ∧ (freezeChangeEffect high s).bac.inTx = s.bac.inTx
    ∧ (freezeChangeEffect high s).bac.backoff = s.bac.backoff
    ∧ (freezeChangeEffect high s).bac.resetPending = s.bac.resetPending
    ∧ (freezeChangeEffect high s).bac.idleTime = s.bac.idleTime ∧ (freezeChangeEffect high s).spc = s.spc
    ∧ (freezeChangeEffect high s).cs = s.cs ∧ (freezeChangeEffect high s).hpu = s.hpu
    ∧ (freezeChangeEffect high s).acu = s.acu ∧ (freezeChangeEffect high s).pending = s.pending
    ∧ (freezeChangeEffect high s).pins = s.pins := by
  simp [freezeChangeEffect]

@[simp] theorem setLastHeard_frame (k : NodeId) (n : Scan) (s : State) :
    (setLastHeard k n s).stu = s.stu ∧ (setLastHeard k n s).ru.selector = s.ru.selector
    ∧ (setLastHeard k n s).ru.reports = s.ru.reports ∧ (setLastHeard k n s).mu = s.mu
    ∧ (setLastHeard k n s).rcu = s.rcu ∧ (setLastHeard k n s).hc = s.hc ∧ (setLastHeard k n s).bac = s.bac
    ∧ (setLastHeard k n s).spc = s.spc ∧ (setLastHeard k n s).cs = s.cs ∧ (setLastHeard k n s).hpu = s.hpu
    ∧ (setLastHeard k n s).acu = s.acu ∧ (setLastHeard k n s).pending = s.pending
    ∧ (setLastHeard k n s).pins = s.pins := by
  simp [setLastHeard]

@[simp] theorem fileInto_frame (i : Slot) (e : Entry) (c : Contribution) (s : State) :
    (fileInto i e c s).stu.gateHigh = s.stu.gateHigh ∧ (fileInto i e c s).stu.faultSeen = s.stu.faultSeen
    ∧ (fileInto i e c s).stu.index = s.stu.index ∧ (fileInto i e c s).stu.formed = s.stu.formed
    ∧ (fileInto i e c s).stu.solo = s.stu.solo ∧ (fileInto i e c s).stu.soloMade = s.stu.soloMade
    ∧ (fileInto i e c s).stu.time = s.stu.time ∧ (fileInto i e c s).stu.boundaryTime = s.stu.boundaryTime
    ∧ (fileInto i e c s).stu.startSerial = s.stu.startSerial ∧ (fileInto i e c s).ru.selector = s.ru.selector
    ∧ (fileInto i e c s).mu.suspended = s.mu.suspended ∧ (fileInto i e c s).mu.selector = s.mu.selector
    ∧ (fileInto i e c s).rcu.projFirst = s.rcu.projFirst ∧ (fileInto i e c s).rcu.projCount = s.rcu.projCount
    ∧ (fileInto i e c s).hc.freezeReason = s.hc.freezeReason ∧ (fileInto i e c s).hc.lastSent = s.hc.lastSent
    ∧ (fileInto i e c s).bac.line = s.bac.line ∧ (fileInto i e c s).bac.receiver = s.bac.receiver
    ∧ (fileInto i e c s).bac.inbound = s.bac.inbound ∧ (fileInto i e c s).bac.scanItems = s.bac.scanItems
    ∧ (fileInto i e c s).bac.inTx = s.bac.inTx ∧ (fileInto i e c s).bac.backoff = s.bac.backoff
    ∧ (fileInto i e c s).bac.resetPending = s.bac.resetPending ∧ (fileInto i e c s).bac.idleTime = s.bac.idleTime
    ∧ (fileInto i e c s).spc = s.spc ∧ (fileInto i e c s).cs = s.cs
    ∧ (fileInto i e c s).hpu.transaction = s.hpu.transaction ∧ (fileInto i e c s).hpu.mask = s.hpu.mask
    ∧ (fileInto i e c s).hpu.result = s.hpu.result ∧ (fileInto i e c s).hpu.lastCode = s.hpu.lastCode
    ∧ (fileInto i e c s).hpu.statSel = s.hpu.statSel ∧ (fileInto i e c s).hpu.statMode = s.hpu.statMode
    ∧ (fileInto i e c s).hpu.memberCopy = s.hpu.memberCopy ∧ (fileInto i e c s).hpu.mergeCopy = s.hpu.mergeCopy
    ∧ (fileInto i e c s).hpu.readWord = s.hpu.readWord ∧ (fileInto i e c s).hpu.resetnLow = s.hpu.resetnLow
    ∧ (fileInto i e c s).acu.reason = s.acu.reason ∧ (fileInto i e c s).pending = s.pending
    ∧ (fileInto i e c s).pins = s.pins := by
  simp only [fileInto]
  (repeat' split) <;> simp

@[simp] theorem countUnfiled_frame (n : Scan) (s : State) :
    (countUnfiled n s).stu = s.stu ∧ (countUnfiled n s).ru = s.ru ∧ (countUnfiled n s).mu = s.mu
    ∧ (countUnfiled n s).rcu = s.rcu ∧ (countUnfiled n s).hc = s.hc ∧ (countUnfiled n s).bac = s.bac
    ∧ (countUnfiled n s).spc = s.spc ∧ (countUnfiled n s).cs = s.cs
    ∧ (countUnfiled n s).hpu.transaction = s.hpu.transaction ∧ (countUnfiled n s).hpu.events = s.hpu.events
    ∧ (countUnfiled n s).hpu.mask = s.hpu.mask ∧ (countUnfiled n s).hpu.result = s.hpu.result
    ∧ (countUnfiled n s).hpu.lastCode = s.hpu.lastCode ∧ (countUnfiled n s).hpu.statSel = s.hpu.statSel
    ∧ (countUnfiled n s).hpu.statMode = s.hpu.statMode ∧ (countUnfiled n s).hpu.memberCopy = s.hpu.memberCopy
    ∧ (countUnfiled n s).hpu.mergeCopy = s.hpu.mergeCopy ∧ (countUnfiled n s).hpu.readWord = s.hpu.readWord
    ∧ (countUnfiled n s).hpu.resetnLow = s.hpu.resetnLow ∧ (countUnfiled n s).acu = s.acu
    ∧ (countUnfiled n s).pending = s.pending
    ∧ (countUnfiled n s).pins = s.pins := by
  simp only [countUnfiled]
  (repeat' split) <;> simp

@[simp] theorem fileFrame_frame (f : ScanFrame) (s : State) :
    (fileFrame f s).stu.gateHigh = s.stu.gateHigh ∧ (fileFrame f s).stu.faultSeen = s.stu.faultSeen
    ∧ (fileFrame f s).stu.index = s.stu.index ∧ (fileFrame f s).stu.formed = s.stu.formed
    ∧ (fileFrame f s).stu.solo = s.stu.solo ∧ (fileFrame f s).stu.soloMade = s.stu.soloMade
    ∧ (fileFrame f s).stu.time = s.stu.time ∧ (fileFrame f s).stu.boundaryTime = s.stu.boundaryTime
    ∧ (fileFrame f s).stu.startSerial = s.stu.startSerial ∧ (fileFrame f s).ru.selector = s.ru.selector
    ∧ (fileFrame f s).mu.suspended = s.mu.suspended ∧ (fileFrame f s).mu.selector = s.mu.selector
    ∧ (fileFrame f s).rcu.projFirst = s.rcu.projFirst ∧ (fileFrame f s).rcu.projCount = s.rcu.projCount
    ∧ (fileFrame f s).hc.freezeReason = s.hc.freezeReason ∧ (fileFrame f s).hc.lastSent = s.hc.lastSent
    ∧ (fileFrame f s).bac.line = s.bac.line ∧ (fileFrame f s).bac.receiver = s.bac.receiver
    ∧ (fileFrame f s).bac.inbound = s.bac.inbound ∧ (fileFrame f s).bac.scanItems = s.bac.scanItems
    ∧ (fileFrame f s).bac.inTx = s.bac.inTx ∧ (fileFrame f s).bac.backoff = s.bac.backoff
    ∧ (fileFrame f s).bac.resetPending = s.bac.resetPending ∧ (fileFrame f s).bac.idleTime = s.bac.idleTime
    ∧ (fileFrame f s).spc = s.spc ∧ (fileFrame f s).cs = s.cs ∧ (fileFrame f s).hpu.transaction = s.hpu.transaction
    ∧ (fileFrame f s).hpu.mask = s.hpu.mask ∧ (fileFrame f s).hpu.result = s.hpu.result
    ∧ (fileFrame f s).hpu.lastCode = s.hpu.lastCode ∧ (fileFrame f s).hpu.statSel = s.hpu.statSel
    ∧ (fileFrame f s).hpu.statMode = s.hpu.statMode ∧ (fileFrame f s).hpu.memberCopy = s.hpu.memberCopy
    ∧ (fileFrame f s).hpu.mergeCopy = s.hpu.mergeCopy ∧ (fileFrame f s).hpu.readWord = s.hpu.readWord
    ∧ (fileFrame f s).hpu.resetnLow = s.hpu.resetnLow ∧ (fileFrame f s).acu.reason = s.acu.reason
    ∧ (fileFrame f s).pending = s.pending
    ∧ (fileFrame f s).pins = s.pins := by
  simp only [fileFrame]
  (repeat' split) <;> simp

@[simp] theorem takeScanFrame_frame (f : ScanFrame) (s : State) :
    (takeScanFrame f s).stu.gateHigh = s.stu.gateHigh ∧ (takeScanFrame f s).stu.faultSeen = s.stu.faultSeen
    ∧ (takeScanFrame f s).stu.formed = s.stu.formed ∧ (takeScanFrame f s).stu.solo = s.stu.solo
    ∧ (takeScanFrame f s).stu.soloMade = s.stu.soloMade ∧ (takeScanFrame f s).stu.time = s.stu.time
    ∧ (takeScanFrame f s).stu.boundaryTime = s.stu.boundaryTime
    ∧ (takeScanFrame f s).stu.startSerial = s.stu.startSerial ∧ (takeScanFrame f s).ru.selector = s.ru.selector
    ∧ (takeScanFrame f s).mu.suspended = s.mu.suspended ∧ (takeScanFrame f s).mu.selector = s.mu.selector
    ∧ (takeScanFrame f s).rcu.projFirst = s.rcu.projFirst ∧ (takeScanFrame f s).rcu.projCount = s.rcu.projCount
    ∧ (takeScanFrame f s).hc.freezeReason = s.hc.freezeReason ∧ (takeScanFrame f s).hc.lastSent = s.hc.lastSent
    ∧ (takeScanFrame f s).bac.line = s.bac.line ∧ (takeScanFrame f s).bac.receiver = s.bac.receiver
    ∧ (takeScanFrame f s).bac.inbound = s.bac.inbound ∧ (takeScanFrame f s).bac.backoff = s.bac.backoff
    ∧ (takeScanFrame f s).bac.resetPending = s.bac.resetPending ∧ (takeScanFrame f s).bac.idleTime = s.bac.idleTime
    ∧ (takeScanFrame f s).spc = s.spc ∧ (takeScanFrame f s).cs = s.cs
    ∧ (takeScanFrame f s).hpu.transaction = s.hpu.transaction ∧ (takeScanFrame f s).hpu.mask = s.hpu.mask
    ∧ (takeScanFrame f s).hpu.result = s.hpu.result ∧ (takeScanFrame f s).hpu.lastCode = s.hpu.lastCode
    ∧ (takeScanFrame f s).hpu.statSel = s.hpu.statSel ∧ (takeScanFrame f s).hpu.statMode = s.hpu.statMode
    ∧ (takeScanFrame f s).hpu.memberCopy = s.hpu.memberCopy ∧ (takeScanFrame f s).hpu.mergeCopy = s.hpu.mergeCopy
    ∧ (takeScanFrame f s).hpu.readWord = s.hpu.readWord ∧ (takeScanFrame f s).hpu.resetnLow = s.hpu.resetnLow
    ∧ (takeScanFrame f s).acu.reason = s.acu.reason ∧ (takeScanFrame f s).pending = s.pending
    ∧ (takeScanFrame f s).pins = s.pins := by
  simp only [takeScanFrame]
  (repeat' split) <;> simp

@[simp] theorem scanFrameTakenEffect_frame (s : State) :
    (scanFrameTakenEffect s).stu.gateHigh = s.stu.gateHigh ∧ (scanFrameTakenEffect s).stu.faultSeen = s.stu.faultSeen
    ∧ (scanFrameTakenEffect s).stu.formed = s.stu.formed ∧ (scanFrameTakenEffect s).stu.solo = s.stu.solo
    ∧ (scanFrameTakenEffect s).stu.soloMade = s.stu.soloMade ∧ (scanFrameTakenEffect s).stu.time = s.stu.time
    ∧ (scanFrameTakenEffect s).stu.boundaryTime = s.stu.boundaryTime
    ∧ (scanFrameTakenEffect s).stu.startSerial = s.stu.startSerial
    ∧ (scanFrameTakenEffect s).ru.selector = s.ru.selector ∧ (scanFrameTakenEffect s).mu.suspended = s.mu.suspended
    ∧ (scanFrameTakenEffect s).mu.selector = s.mu.selector ∧ (scanFrameTakenEffect s).rcu.projFirst = s.rcu.projFirst
    ∧ (scanFrameTakenEffect s).rcu.projCount = s.rcu.projCount
    ∧ (scanFrameTakenEffect s).hc.freezeReason = s.hc.freezeReason
    ∧ (scanFrameTakenEffect s).hc.lastSent = s.hc.lastSent ∧ (scanFrameTakenEffect s).bac.line = s.bac.line
    ∧ (scanFrameTakenEffect s).bac.receiver = s.bac.receiver ∧ (scanFrameTakenEffect s).bac.backoff = s.bac.backoff
    ∧ (scanFrameTakenEffect s).bac.resetPending = s.bac.resetPending
    ∧ (scanFrameTakenEffect s).bac.idleTime = s.bac.idleTime ∧ (scanFrameTakenEffect s).spc = s.spc
    ∧ (scanFrameTakenEffect s).cs = s.cs ∧ (scanFrameTakenEffect s).hpu.transaction = s.hpu.transaction
    ∧ (scanFrameTakenEffect s).hpu.mask = s.hpu.mask ∧ (scanFrameTakenEffect s).hpu.result = s.hpu.result
    ∧ (scanFrameTakenEffect s).hpu.lastCode = s.hpu.lastCode ∧ (scanFrameTakenEffect s).hpu.statSel = s.hpu.statSel
    ∧ (scanFrameTakenEffect s).hpu.statMode = s.hpu.statMode
    ∧ (scanFrameTakenEffect s).hpu.memberCopy = s.hpu.memberCopy
    ∧ (scanFrameTakenEffect s).hpu.mergeCopy = s.hpu.mergeCopy
    ∧ (scanFrameTakenEffect s).hpu.readWord = s.hpu.readWord
    ∧ (scanFrameTakenEffect s).hpu.resetnLow = s.hpu.resetnLow ∧ (scanFrameTakenEffect s).acu.reason = s.acu.reason
    ∧ (scanFrameTakenEffect s).pending = s.pending
    ∧ (scanFrameTakenEffect s).pins = s.pins := by
  simp only [scanFrameTakenEffect]
  (repeat' split) <;> simp

@[simp] theorem suspendRecordsEffect_frame (s : State) :
    (suspendRecordsEffect s).stu = s.stu ∧ (suspendRecordsEffect s).ru = s.ru
    ∧ (suspendRecordsEffect s).mu.slots = s.mu.slots ∧ (suspendRecordsEffect s).mu.current = s.mu.current
    ∧ (suspendRecordsEffect s).mu.selector = s.mu.selector ∧ (suspendRecordsEffect s).rcu = s.rcu
    ∧ (suspendRecordsEffect s).hc = s.hc ∧ (suspendRecordsEffect s).bac = s.bac ∧ (suspendRecordsEffect s).spc = s.spc
    ∧ (suspendRecordsEffect s).cs = s.cs ∧ (suspendRecordsEffect s).hpu.events = s.hpu.events
    ∧ (suspendRecordsEffect s).hpu.mask = s.hpu.mask ∧ (suspendRecordsEffect s).hpu.counters = s.hpu.counters
    ∧ (suspendRecordsEffect s).hpu.statSel = s.hpu.statSel ∧ (suspendRecordsEffect s).hpu.statMode = s.hpu.statMode
    ∧ (suspendRecordsEffect s).hpu.memberCopy = s.hpu.memberCopy
    ∧ (suspendRecordsEffect s).hpu.mergeCopy = s.hpu.mergeCopy
    ∧ (suspendRecordsEffect s).hpu.readWord = s.hpu.readWord
    ∧ (suspendRecordsEffect s).hpu.resetnLow = s.hpu.resetnLow ∧ (suspendRecordsEffect s).acu = s.acu
    ∧ (suspendRecordsEffect s).pending = s.pending
    ∧ (suspendRecordsEffect s).pins = s.pins := by
  simp only [suspendRecordsEffect, hostCommand, onPort]
  (repeat' split) <;> simp

@[simp] theorem resumeRecordsEffect_frame (s : State) :
    (resumeRecordsEffect s).stu = s.stu ∧ (resumeRecordsEffect s).ru = s.ru
    ∧ (resumeRecordsEffect s).mu.slots = s.mu.slots ∧ (resumeRecordsEffect s).mu.current = s.mu.current
    ∧ (resumeRecordsEffect s).mu.selector = s.mu.selector ∧ (resumeRecordsEffect s).rcu = s.rcu
    ∧ (resumeRecordsEffect s).hc = s.hc ∧ (resumeRecordsEffect s).bac = s.bac ∧ (resumeRecordsEffect s).spc = s.spc
    ∧ (resumeRecordsEffect s).cs = s.cs ∧ (resumeRecordsEffect s).hpu.events = s.hpu.events
    ∧ (resumeRecordsEffect s).hpu.mask = s.hpu.mask ∧ (resumeRecordsEffect s).hpu.counters = s.hpu.counters
    ∧ (resumeRecordsEffect s).hpu.statSel = s.hpu.statSel ∧ (resumeRecordsEffect s).hpu.statMode = s.hpu.statMode
    ∧ (resumeRecordsEffect s).hpu.memberCopy = s.hpu.memberCopy
    ∧ (resumeRecordsEffect s).hpu.mergeCopy = s.hpu.mergeCopy ∧ (resumeRecordsEffect s).hpu.readWord = s.hpu.readWord
    ∧ (resumeRecordsEffect s).hpu.resetnLow = s.hpu.resetnLow ∧ (resumeRecordsEffect s).acu = s.acu
    ∧ (resumeRecordsEffect s).pending = s.pending
    ∧ (resumeRecordsEffect s).pins = s.pins := by
  simp only [resumeRecordsEffect, hostCommand, onPort]
  (repeat' split) <;> simp

@[simp] theorem dropMismatch_frame (s : State) :
    (dropMismatch s).stu = s.stu ∧ (dropMismatch s).ru = s.ru ∧ (dropMismatch s).mu = s.mu
    ∧ (dropMismatch s).rcu = s.rcu ∧ (dropMismatch s).hc = s.hc ∧ (dropMismatch s).bac = s.bac
    ∧ (dropMismatch s).spc = s.spc ∧ (dropMismatch s).cs = s.cs ∧ (dropMismatch s).hpu.transaction = s.hpu.transaction
    ∧ (dropMismatch s).hpu.events = s.hpu.events ∧ (dropMismatch s).hpu.mask = s.hpu.mask
    ∧ (dropMismatch s).hpu.result = s.hpu.result ∧ (dropMismatch s).hpu.lastCode = s.hpu.lastCode
    ∧ (dropMismatch s).hpu.statSel = s.hpu.statSel ∧ (dropMismatch s).hpu.statMode = s.hpu.statMode
    ∧ (dropMismatch s).hpu.memberCopy = s.hpu.memberCopy ∧ (dropMismatch s).hpu.mergeCopy = s.hpu.mergeCopy
    ∧ (dropMismatch s).hpu.readWord = s.hpu.readWord ∧ (dropMismatch s).hpu.resetnLow = s.hpu.resetnLow
    ∧ (dropMismatch s).acu.state = s.acu.state ∧ (dropMismatch s).acu.joinScan = s.acu.joinScan
    ∧ (dropMismatch s).acu.leaveScan = s.acu.leaveScan ∧ (dropMismatch s).acu.listen = s.acu.listen
    ∧ (dropMismatch s).acu.admission = s.acu.admission ∧ (dropMismatch s).acu.matchingSeen = s.acu.matchingSeen
    ∧ (dropMismatch s).acu.refusalPending = s.acu.refusalPending ∧ (dropMismatch s).acu.drain = s.acu.drain
    ∧ (dropMismatch s).acu.reason = s.acu.reason ∧ (dropMismatch s).pending = s.pending
    ∧ (dropMismatch s).pins = s.pins := by
  simp only [dropMismatch]
  (repeat' split) <;> simp

@[simp] theorem countGood_frame (f : Frame) (s : State) :
    (countGood f s).stu = s.stu ∧ (countGood f s).ru = s.ru ∧ (countGood f s).mu = s.mu ∧ (countGood f s).rcu = s.rcu
    ∧ (countGood f s).hc = s.hc ∧ (countGood f s).bac = s.bac ∧ (countGood f s).spc = s.spc
    ∧ (countGood f s).cs = s.cs ∧ (countGood f s).hpu.transaction = s.hpu.transaction
    ∧ (countGood f s).hpu.events = s.hpu.events ∧ (countGood f s).hpu.mask = s.hpu.mask
    ∧ (countGood f s).hpu.result = s.hpu.result ∧ (countGood f s).hpu.lastCode = s.hpu.lastCode
    ∧ (countGood f s).hpu.statSel = s.hpu.statSel ∧ (countGood f s).hpu.statMode = s.hpu.statMode
    ∧ (countGood f s).hpu.memberCopy = s.hpu.memberCopy ∧ (countGood f s).hpu.mergeCopy = s.hpu.mergeCopy
    ∧ (countGood f s).hpu.readWord = s.hpu.readWord ∧ (countGood f s).hpu.resetnLow = s.hpu.resetnLow
    ∧ (countGood f s).acu.state = s.acu.state ∧ (countGood f s).acu.joinScan = s.acu.joinScan
    ∧ (countGood f s).acu.leaveScan = s.acu.leaveScan ∧ (countGood f s).acu.admission = s.acu.admission
    ∧ (countGood f s).acu.matchingSeen = s.acu.matchingSeen
    ∧ (countGood f s).acu.mismatchingSeen = s.acu.mismatchingSeen
    ∧ (countGood f s).acu.refusalPending = s.acu.refusalPending ∧ (countGood f s).acu.drain = s.acu.drain
    ∧ (countGood f s).acu.reason = s.acu.reason ∧ (countGood f s).pending = s.pending
    ∧ (countGood f s).pins = s.pins := by
  simp [countGood]

@[simp] theorem conflictAtAcu_frame (s : State) :
    (conflictAtAcu s).stu.gateHigh = s.stu.gateHigh ∧ (conflictAtAcu s).stu.faultSeen = s.stu.faultSeen
    ∧ (conflictAtAcu s).stu.index = s.stu.index ∧ (conflictAtAcu s).stu.formed = s.stu.formed
    ∧ (conflictAtAcu s).stu.solo = s.stu.solo ∧ (conflictAtAcu s).stu.soloMade = s.stu.soloMade
    ∧ (conflictAtAcu s).stu.time = s.stu.time ∧ (conflictAtAcu s).stu.boundaryTime = s.stu.boundaryTime
    ∧ (conflictAtAcu s).stu.startSerial = s.stu.startSerial ∧ (conflictAtAcu s).ru.selector = s.ru.selector
    ∧ (conflictAtAcu s).mu.suspended = s.mu.suspended ∧ (conflictAtAcu s).mu.selector = s.mu.selector
    ∧ (conflictAtAcu s).rcu.projFirst = s.rcu.projFirst ∧ (conflictAtAcu s).rcu.projCount = s.rcu.projCount
    ∧ (conflictAtAcu s).hc.freezeReason = s.hc.freezeReason ∧ (conflictAtAcu s).hc.lastSent = s.hc.lastSent
    ∧ (conflictAtAcu s).bac.line = s.bac.line ∧ (conflictAtAcu s).bac.receiver = s.bac.receiver
    ∧ (conflictAtAcu s).bac.inbound = s.bac.inbound ∧ (conflictAtAcu s).bac.scanItems = s.bac.scanItems
    ∧ (conflictAtAcu s).bac.inTx = s.bac.inTx ∧ (conflictAtAcu s).bac.backoff = s.bac.backoff
    ∧ (conflictAtAcu s).bac.resetPending = s.bac.resetPending ∧ (conflictAtAcu s).bac.idleTime = s.bac.idleTime
    ∧ (conflictAtAcu s).spc = s.spc ∧ (conflictAtAcu s).cs = s.cs
    ∧ (conflictAtAcu s).hpu.transaction = s.hpu.transaction ∧ (conflictAtAcu s).hpu.mask = s.hpu.mask
    ∧ (conflictAtAcu s).hpu.result = s.hpu.result ∧ (conflictAtAcu s).hpu.lastCode = s.hpu.lastCode
    ∧ (conflictAtAcu s).hpu.statSel = s.hpu.statSel ∧ (conflictAtAcu s).hpu.statMode = s.hpu.statMode
    ∧ (conflictAtAcu s).hpu.memberCopy = s.hpu.memberCopy ∧ (conflictAtAcu s).hpu.mergeCopy = s.hpu.mergeCopy
    ∧ (conflictAtAcu s).hpu.readWord = s.hpu.readWord ∧ (conflictAtAcu s).hpu.resetnLow = s.hpu.resetnLow
    ∧ (conflictAtAcu s).pending = s.pending
    ∧ (conflictAtAcu s).pins = s.pins := by
  simp only [conflictAtAcu]
  (repeat' split) <;> simp

@[simp] theorem takeGood_frame (f : Frame) (s : State) :
    (takeGood f s).stu.gateHigh = s.stu.gateHigh ∧ (takeGood f s).stu.faultSeen = s.stu.faultSeen
    ∧ (takeGood f s).stu.index = s.stu.index ∧ (takeGood f s).stu.formed = s.stu.formed
    ∧ (takeGood f s).stu.solo = s.stu.solo ∧ (takeGood f s).stu.soloMade = s.stu.soloMade
    ∧ (takeGood f s).stu.time = s.stu.time ∧ (takeGood f s).stu.boundaryTime = s.stu.boundaryTime
    ∧ (takeGood f s).stu.startSerial = s.stu.startSerial ∧ (takeGood f s).ru.selector = s.ru.selector
    ∧ (takeGood f s).mu.suspended = s.mu.suspended ∧ (takeGood f s).mu.selector = s.mu.selector
    ∧ (takeGood f s).rcu.projFirst = s.rcu.projFirst ∧ (takeGood f s).rcu.projCount = s.rcu.projCount
    ∧ (takeGood f s).hc.freezeReason = s.hc.freezeReason ∧ (takeGood f s).hc.lastSent = s.hc.lastSent
    ∧ (takeGood f s).bac.line = s.bac.line ∧ (takeGood f s).bac.receiver = s.bac.receiver
    ∧ (takeGood f s).bac.scanItems = s.bac.scanItems ∧ (takeGood f s).bac.inTx = s.bac.inTx
    ∧ (takeGood f s).bac.backoff = s.bac.backoff ∧ (takeGood f s).bac.resetPending = s.bac.resetPending
    ∧ (takeGood f s).bac.idleTime = s.bac.idleTime ∧ (takeGood f s).spc = s.spc ∧ (takeGood f s).cs = s.cs
    ∧ (takeGood f s).hpu.transaction = s.hpu.transaction ∧ (takeGood f s).hpu.mask = s.hpu.mask
    ∧ (takeGood f s).hpu.result = s.hpu.result ∧ (takeGood f s).hpu.lastCode = s.hpu.lastCode
    ∧ (takeGood f s).hpu.statSel = s.hpu.statSel ∧ (takeGood f s).hpu.statMode = s.hpu.statMode
    ∧ (takeGood f s).hpu.memberCopy = s.hpu.memberCopy ∧ (takeGood f s).hpu.mergeCopy = s.hpu.mergeCopy
    ∧ (takeGood f s).hpu.readWord = s.hpu.readWord ∧ (takeGood f s).hpu.resetnLow = s.hpu.resetnLow
    ∧ (takeGood f s).pending = s.pending
    ∧ (takeGood f s).pins = s.pins := by
  simp only [takeGood]
  (repeat' split) <;> simp

@[simp] theorem takeChecked_frame (checked : Except RxError Frame) (s : State) :
    (takeChecked checked s).stu.gateHigh = s.stu.gateHigh ∧ (takeChecked checked s).stu.faultSeen = s.stu.faultSeen
    ∧ (takeChecked checked s).stu.index = s.stu.index ∧ (takeChecked checked s).stu.formed = s.stu.formed
    ∧ (takeChecked checked s).stu.solo = s.stu.solo ∧ (takeChecked checked s).stu.soloMade = s.stu.soloMade
    ∧ (takeChecked checked s).stu.time = s.stu.time ∧ (takeChecked checked s).stu.boundaryTime = s.stu.boundaryTime
    ∧ (takeChecked checked s).stu.startSerial = s.stu.startSerial
    ∧ (takeChecked checked s).ru.selector = s.ru.selector ∧ (takeChecked checked s).mu.suspended = s.mu.suspended
    ∧ (takeChecked checked s).mu.selector = s.mu.selector ∧ (takeChecked checked s).rcu.projFirst = s.rcu.projFirst
    ∧ (takeChecked checked s).rcu.projCount = s.rcu.projCount
    ∧ (takeChecked checked s).hc.freezeReason = s.hc.freezeReason
    ∧ (takeChecked checked s).hc.lastSent = s.hc.lastSent ∧ (takeChecked checked s).bac.line = s.bac.line
    ∧ (takeChecked checked s).bac.receiver = s.bac.receiver ∧ (takeChecked checked s).bac.scanItems = s.bac.scanItems
    ∧ (takeChecked checked s).bac.inTx = s.bac.inTx ∧ (takeChecked checked s).bac.backoff = s.bac.backoff
    ∧ (takeChecked checked s).bac.resetPending = s.bac.resetPending
    ∧ (takeChecked checked s).bac.idleTime = s.bac.idleTime ∧ (takeChecked checked s).spc = s.spc
    ∧ (takeChecked checked s).cs = s.cs ∧ (takeChecked checked s).hpu.transaction = s.hpu.transaction
    ∧ (takeChecked checked s).hpu.mask = s.hpu.mask ∧ (takeChecked checked s).hpu.result = s.hpu.result
    ∧ (takeChecked checked s).hpu.lastCode = s.hpu.lastCode ∧ (takeChecked checked s).hpu.statSel = s.hpu.statSel
    ∧ (takeChecked checked s).hpu.statMode = s.hpu.statMode
    ∧ (takeChecked checked s).hpu.memberCopy = s.hpu.memberCopy
    ∧ (takeChecked checked s).hpu.mergeCopy = s.hpu.mergeCopy ∧ (takeChecked checked s).hpu.readWord = s.hpu.readWord
    ∧ (takeChecked checked s).hpu.resetnLow = s.hpu.resetnLow ∧ (takeChecked checked s).pending = s.pending
    ∧ (takeChecked checked s).pins = s.pins := by
  simp only [takeChecked]
  (repeat' split) <;> simp

@[simp] theorem carrierEnded_frame (s : State) :
    (carrierEnded s).stu = s.stu ∧ (carrierEnded s).ru = s.ru ∧ (carrierEnded s).mu = s.mu
    ∧ (carrierEnded s).rcu = s.rcu ∧ (carrierEnded s).hc = s.hc ∧ (carrierEnded s).bac.transmitter = s.bac.transmitter
    ∧ (carrierEnded s).bac.inbound = s.bac.inbound ∧ (carrierEnded s).bac.holdItem = s.bac.holdItem
    ∧ (carrierEnded s).bac.rosterItem = s.bac.rosterItem ∧ (carrierEnded s).bac.scanItems = s.bac.scanItems
    ∧ (carrierEnded s).bac.inTx = s.bac.inTx ∧ (carrierEnded s).bac.busyMark = s.bac.busyMark
    ∧ (carrierEnded s).bac.backoff = s.bac.backoff ∧ (carrierEnded s).bac.resetPending = s.bac.resetPending
    ∧ (carrierEnded s).spc = s.spc ∧ (carrierEnded s).cs = s.cs ∧ (carrierEnded s).hpu = s.hpu
    ∧ (carrierEnded s).acu = s.acu ∧ (carrierEnded s).pending = s.pending
    ∧ (carrierEnded s).pins = s.pins := by
  simp [carrierEnded]

@[simp] theorem receivedFrameEndEffect_frame (bytes : List Byte) (s : State) :
    (receivedFrameEndEffect bytes s).stu.gateHigh = s.stu.gateHigh
    ∧ (receivedFrameEndEffect bytes s).stu.faultSeen = s.stu.faultSeen
    ∧ (receivedFrameEndEffect bytes s).stu.index = s.stu.index
    ∧ (receivedFrameEndEffect bytes s).stu.formed = s.stu.formed
    ∧ (receivedFrameEndEffect bytes s).stu.solo = s.stu.solo
    ∧ (receivedFrameEndEffect bytes s).stu.soloMade = s.stu.soloMade
    ∧ (receivedFrameEndEffect bytes s).stu.time = s.stu.time
    ∧ (receivedFrameEndEffect bytes s).stu.boundaryTime = s.stu.boundaryTime
    ∧ (receivedFrameEndEffect bytes s).stu.startSerial = s.stu.startSerial
    ∧ (receivedFrameEndEffect bytes s).ru.selector = s.ru.selector
    ∧ (receivedFrameEndEffect bytes s).mu.suspended = s.mu.suspended
    ∧ (receivedFrameEndEffect bytes s).mu.selector = s.mu.selector
    ∧ (receivedFrameEndEffect bytes s).rcu.projFirst = s.rcu.projFirst
    ∧ (receivedFrameEndEffect bytes s).rcu.projCount = s.rcu.projCount
    ∧ (receivedFrameEndEffect bytes s).hc.freezeReason = s.hc.freezeReason
    ∧ (receivedFrameEndEffect bytes s).hc.lastSent = s.hc.lastSent
    ∧ (receivedFrameEndEffect bytes s).bac.scanItems = s.bac.scanItems
    ∧ (receivedFrameEndEffect bytes s).bac.inTx = s.bac.inTx
    ∧ (receivedFrameEndEffect bytes s).bac.backoff = s.bac.backoff
    ∧ (receivedFrameEndEffect bytes s).bac.resetPending = s.bac.resetPending
    ∧ (receivedFrameEndEffect bytes s).spc = s.spc ∧ (receivedFrameEndEffect bytes s).cs = s.cs
    ∧ (receivedFrameEndEffect bytes s).hpu.transaction = s.hpu.transaction
    ∧ (receivedFrameEndEffect bytes s).hpu.mask = s.hpu.mask
    ∧ (receivedFrameEndEffect bytes s).hpu.result = s.hpu.result
    ∧ (receivedFrameEndEffect bytes s).hpu.lastCode = s.hpu.lastCode
    ∧ (receivedFrameEndEffect bytes s).hpu.statSel = s.hpu.statSel
    ∧ (receivedFrameEndEffect bytes s).hpu.statMode = s.hpu.statMode
    ∧ (receivedFrameEndEffect bytes s).hpu.memberCopy = s.hpu.memberCopy
    ∧ (receivedFrameEndEffect bytes s).hpu.mergeCopy = s.hpu.mergeCopy
    ∧ (receivedFrameEndEffect bytes s).hpu.readWord = s.hpu.readWord
    ∧ (receivedFrameEndEffect bytes s).hpu.resetnLow = s.hpu.resetnLow
    ∧ (receivedFrameEndEffect bytes s).pending = s.pending
    ∧ (receivedFrameEndEffect bytes s).pins = s.pins := by
  simp only [receivedFrameEndEffect]
  (repeat' split) <;> simp

@[simp] theorem startAttempt_frame (item : Item) (f : Frame) (b : Bac) (s : State) :
    (startAttempt item f b s).stu = s.stu ∧ (startAttempt item f b s).ru = s.ru ∧ (startAttempt item f b s).mu = s.mu
    ∧ (startAttempt item f b s).rcu = s.rcu ∧ (startAttempt item f b s).hc = s.hc
    ∧ (startAttempt item f b s).spc = s.spc ∧ (startAttempt item f b s).cs = s.cs
    ∧ (startAttempt item f b s).hpu.transaction = s.hpu.transaction
    ∧ (startAttempt item f b s).hpu.events = s.hpu.events ∧ (startAttempt item f b s).hpu.mask = s.hpu.mask
    ∧ (startAttempt item f b s).hpu.result = s.hpu.result ∧ (startAttempt item f b s).hpu.lastCode = s.hpu.lastCode
    ∧ (startAttempt item f b s).hpu.statSel = s.hpu.statSel ∧ (startAttempt item f b s).hpu.statMode = s.hpu.statMode
    ∧ (startAttempt item f b s).hpu.memberCopy = s.hpu.memberCopy
    ∧ (startAttempt item f b s).hpu.mergeCopy = s.hpu.mergeCopy
    ∧ (startAttempt item f b s).hpu.readWord = s.hpu.readWord
    ∧ (startAttempt item f b s).hpu.resetnLow = s.hpu.resetnLow ∧ (startAttempt item f b s).acu = s.acu
    ∧ (startAttempt item f b s).pending = s.pending
    ∧ (startAttempt item f b s).pins = s.pins := by
  simp only [startAttempt]
  (repeat' split) <;> simp

@[simp] theorem chooseItem_frame (s : State) :
    (chooseItem s).stu = s.stu ∧ (chooseItem s).ru = s.ru ∧ (chooseItem s).mu = s.mu ∧ (chooseItem s).rcu = s.rcu
    ∧ (chooseItem s).hc = s.hc ∧ (chooseItem s).spc = s.spc ∧ (chooseItem s).cs = s.cs
    ∧ (chooseItem s).hpu.transaction = s.hpu.transaction ∧ (chooseItem s).hpu.events = s.hpu.events
    ∧ (chooseItem s).hpu.mask = s.hpu.mask ∧ (chooseItem s).hpu.result = s.hpu.result
    ∧ (chooseItem s).hpu.lastCode = s.hpu.lastCode ∧ (chooseItem s).hpu.statSel = s.hpu.statSel
    ∧ (chooseItem s).hpu.statMode = s.hpu.statMode ∧ (chooseItem s).hpu.memberCopy = s.hpu.memberCopy
    ∧ (chooseItem s).hpu.mergeCopy = s.hpu.mergeCopy ∧ (chooseItem s).hpu.readWord = s.hpu.readWord
    ∧ (chooseItem s).hpu.resetnLow = s.hpu.resetnLow ∧ (chooseItem s).acu = s.acu ∧ (chooseItem s).pending = s.pending
    ∧ (chooseItem s).pins = s.pins := by
  simp only [chooseItem]
  (repeat' split) <;> simp

@[simp] theorem accessWaitCompleteEffect_frame (s : State) :
    (accessWaitCompleteEffect s).stu = s.stu ∧ (accessWaitCompleteEffect s).ru = s.ru
    ∧ (accessWaitCompleteEffect s).mu = s.mu ∧ (accessWaitCompleteEffect s).rcu = s.rcu
    ∧ (accessWaitCompleteEffect s).hc = s.hc ∧ (accessWaitCompleteEffect s).spc = s.spc
    ∧ (accessWaitCompleteEffect s).cs = s.cs ∧ (accessWaitCompleteEffect s).hpu.transaction = s.hpu.transaction
    ∧ (accessWaitCompleteEffect s).hpu.events = s.hpu.events ∧ (accessWaitCompleteEffect s).hpu.mask = s.hpu.mask
    ∧ (accessWaitCompleteEffect s).hpu.result = s.hpu.result
    ∧ (accessWaitCompleteEffect s).hpu.lastCode = s.hpu.lastCode
    ∧ (accessWaitCompleteEffect s).hpu.statSel = s.hpu.statSel
    ∧ (accessWaitCompleteEffect s).hpu.statMode = s.hpu.statMode
    ∧ (accessWaitCompleteEffect s).hpu.memberCopy = s.hpu.memberCopy
    ∧ (accessWaitCompleteEffect s).hpu.mergeCopy = s.hpu.mergeCopy
    ∧ (accessWaitCompleteEffect s).hpu.readWord = s.hpu.readWord
    ∧ (accessWaitCompleteEffect s).hpu.resetnLow = s.hpu.resetnLow ∧ (accessWaitCompleteEffect s).acu = s.acu
    ∧ (accessWaitCompleteEffect s).pending = s.pending
    ∧ (accessWaitCompleteEffect s).pins = s.pins := by
  simp only [accessWaitCompleteEffect]
  (repeat' split) <;> simp

@[simp] theorem reportSuccess_frame (f : Frame) (s : State) :
    (reportSuccess f s).stu = s.stu ∧ (reportSuccess f s).ru = s.ru ∧ (reportSuccess f s).mu = s.mu
    ∧ (reportSuccess f s).rcu = s.rcu ∧ (reportSuccess f s).hc.backlogReason = s.hc.backlogReason
    ∧ (reportSuccess f s).hc.freezeReason = s.hc.freezeReason ∧ (reportSuccess f s).hc.selfHold = s.hc.selfHold
    ∧ (reportSuccess f s).hc.renewal = s.hc.renewal ∧ (reportSuccess f s).hc.requested = s.hc.requested
    ∧ (reportSuccess f s).bac = s.bac ∧ (reportSuccess f s).spc = s.spc ∧ (reportSuccess f s).cs = s.cs
    ∧ (reportSuccess f s).hpu.transaction = s.hpu.transaction ∧ (reportSuccess f s).hpu.events = s.hpu.events
    ∧ (reportSuccess f s).hpu.mask = s.hpu.mask ∧ (reportSuccess f s).hpu.result = s.hpu.result
    ∧ (reportSuccess f s).hpu.lastCode = s.hpu.lastCode ∧ (reportSuccess f s).hpu.statSel = s.hpu.statSel
    ∧ (reportSuccess f s).hpu.statMode = s.hpu.statMode ∧ (reportSuccess f s).hpu.memberCopy = s.hpu.memberCopy
    ∧ (reportSuccess f s).hpu.mergeCopy = s.hpu.mergeCopy ∧ (reportSuccess f s).hpu.readWord = s.hpu.readWord
    ∧ (reportSuccess f s).hpu.resetnLow = s.hpu.resetnLow ∧ (reportSuccess f s).acu = s.acu
    ∧ (reportSuccess f s).pending = s.pending
    ∧ (reportSuccess f s).pins = s.pins := by
  simp only [reportSuccess]
  (repeat' split) <;> simp

@[simp] theorem attemptOver_frame (lineBusy : Bool) (s : State) :
    (attemptOver lineBusy s).stu = s.stu ∧ (attemptOver lineBusy s).ru = s.ru ∧ (attemptOver lineBusy s).mu = s.mu
    ∧ (attemptOver lineBusy s).rcu = s.rcu ∧ (attemptOver lineBusy s).hc = s.hc
    ∧ (attemptOver lineBusy s).bac.transmitter = s.bac.transmitter ∧ (attemptOver lineBusy s).bac.inbound = s.bac.inbound
    ∧ (attemptOver lineBusy s).bac.holdItem = s.bac.holdItem ∧ (attemptOver lineBusy s).bac.rosterItem = s.bac.rosterItem
    ∧ (attemptOver lineBusy s).bac.scanItems = s.bac.scanItems ∧ (attemptOver lineBusy s).bac.busyMark = s.bac.busyMark
    ∧ (attemptOver lineBusy s).bac.backoff = s.bac.backoff ∧ (attemptOver lineBusy s).bac.resetPending = s.bac.resetPending
    ∧ (attemptOver lineBusy s).spc = s.spc ∧ (attemptOver lineBusy s).cs = s.cs ∧ (attemptOver lineBusy s).hpu = s.hpu
    ∧ (attemptOver lineBusy s).acu = s.acu ∧ (attemptOver lineBusy s).pending = s.pending
    ∧ (attemptOver lineBusy s).pins = s.pins := by
  simp only [attemptOver]
  (repeat' split) <;> simp

@[simp] theorem txSuccessEffect_frame (s : State) :
    (txSuccessEffect s).stu = s.stu ∧ (txSuccessEffect s).ru = s.ru ∧ (txSuccessEffect s).mu = s.mu
    ∧ (txSuccessEffect s).rcu = s.rcu ∧ (txSuccessEffect s).hc.backlogReason = s.hc.backlogReason
    ∧ (txSuccessEffect s).hc.freezeReason = s.hc.freezeReason ∧ (txSuccessEffect s).hc.selfHold = s.hc.selfHold
    ∧ (txSuccessEffect s).hc.renewal = s.hc.renewal ∧ (txSuccessEffect s).hc.requested = s.hc.requested
    ∧ (txSuccessEffect s).bac.inbound = s.bac.inbound ∧ (txSuccessEffect s).bac.holdItem = s.bac.holdItem
    ∧ (txSuccessEffect s).bac.rosterItem = s.bac.rosterItem ∧ (txSuccessEffect s).bac.scanItems = s.bac.scanItems
    ∧ (txSuccessEffect s).bac.backoff = s.bac.backoff ∧ (txSuccessEffect s).bac.resetPending = s.bac.resetPending
    ∧ (txSuccessEffect s).spc = s.spc ∧ (txSuccessEffect s).cs = s.cs
    ∧ (txSuccessEffect s).hpu.transaction = s.hpu.transaction ∧ (txSuccessEffect s).hpu.events = s.hpu.events
    ∧ (txSuccessEffect s).hpu.mask = s.hpu.mask ∧ (txSuccessEffect s).hpu.result = s.hpu.result
    ∧ (txSuccessEffect s).hpu.lastCode = s.hpu.lastCode ∧ (txSuccessEffect s).hpu.statSel = s.hpu.statSel
    ∧ (txSuccessEffect s).hpu.statMode = s.hpu.statMode ∧ (txSuccessEffect s).hpu.memberCopy = s.hpu.memberCopy
    ∧ (txSuccessEffect s).hpu.mergeCopy = s.hpu.mergeCopy ∧ (txSuccessEffect s).hpu.readWord = s.hpu.readWord
    ∧ (txSuccessEffect s).hpu.resetnLow = s.hpu.resetnLow ∧ (txSuccessEffect s).acu = s.acu
    ∧ (txSuccessEffect s).pending = s.pending
    ∧ (txSuccessEffect s).pins = s.pins := by
  simp only [txSuccessEffect]
  (repeat' split) <;> simp

@[simp] theorem collisionEffect_frame (atByte : Nat) (s : State) :
    (collisionEffect atByte s).stu = s.stu ∧ (collisionEffect atByte s).ru = s.ru
    ∧ (collisionEffect atByte s).mu = s.mu ∧ (collisionEffect atByte s).rcu = s.rcu
    ∧ (collisionEffect atByte s).hc = s.hc ∧ (collisionEffect atByte s).bac.line = s.bac.line
    ∧ (collisionEffect atByte s).bac.receiver = s.bac.receiver
    ∧ (collisionEffect atByte s).bac.inbound = s.bac.inbound
    ∧ (collisionEffect atByte s).bac.holdItem = s.bac.holdItem
    ∧ (collisionEffect atByte s).bac.rosterItem = s.bac.rosterItem
    ∧ (collisionEffect atByte s).bac.scanItems = s.bac.scanItems
    ∧ (collisionEffect atByte s).bac.busyMark = s.bac.busyMark
    ∧ (collisionEffect atByte s).bac.backoff = s.bac.backoff
    ∧ (collisionEffect atByte s).bac.resetPending = s.bac.resetPending
    ∧ (collisionEffect atByte s).bac.idleTime = s.bac.idleTime ∧ (collisionEffect atByte s).spc = s.spc
    ∧ (collisionEffect atByte s).cs = s.cs ∧ (collisionEffect atByte s).hpu.transaction = s.hpu.transaction
    ∧ (collisionEffect atByte s).hpu.events = s.hpu.events ∧ (collisionEffect atByte s).hpu.mask = s.hpu.mask
    ∧ (collisionEffect atByte s).hpu.result = s.hpu.result ∧ (collisionEffect atByte s).hpu.lastCode = s.hpu.lastCode
    ∧ (collisionEffect atByte s).hpu.statSel = s.hpu.statSel
    ∧ (collisionEffect atByte s).hpu.statMode = s.hpu.statMode
    ∧ (collisionEffect atByte s).hpu.memberCopy = s.hpu.memberCopy
    ∧ (collisionEffect atByte s).hpu.mergeCopy = s.hpu.mergeCopy
    ∧ (collisionEffect atByte s).hpu.readWord = s.hpu.readWord
    ∧ (collisionEffect atByte s).hpu.resetnLow = s.hpu.resetnLow ∧ (collisionEffect atByte s).acu = s.acu
    ∧ (collisionEffect atByte s).pending = s.pending
    ∧ (collisionEffect atByte s).pins = s.pins := by
  simp only [collisionEffect]
  (repeat' split) <;> simp

@[simp] theorem returnFrame_frame (t : InTx) (s : State) :
    (returnFrame t s).stu = s.stu ∧ (returnFrame t s).ru = s.ru ∧ (returnFrame t s).mu = s.mu
    ∧ (returnFrame t s).rcu = s.rcu ∧ (returnFrame t s).hc = s.hc ∧ (returnFrame t s).bac.line = s.bac.line
    ∧ (returnFrame t s).bac.receiver = s.bac.receiver ∧ (returnFrame t s).bac.transmitter = s.bac.transmitter
    ∧ (returnFrame t s).bac.inbound = s.bac.inbound ∧ (returnFrame t s).bac.inTx = s.bac.inTx
    ∧ (returnFrame t s).bac.busyMark = s.bac.busyMark ∧ (returnFrame t s).bac.backoff = s.bac.backoff
    ∧ (returnFrame t s).bac.resetPending = s.bac.resetPending ∧ (returnFrame t s).bac.idleTime = s.bac.idleTime
    ∧ (returnFrame t s).spc = s.spc ∧ (returnFrame t s).cs = s.cs
    ∧ (returnFrame t s).hpu.transaction = s.hpu.transaction ∧ (returnFrame t s).hpu.events = s.hpu.events
    ∧ (returnFrame t s).hpu.mask = s.hpu.mask ∧ (returnFrame t s).hpu.result = s.hpu.result
    ∧ (returnFrame t s).hpu.lastCode = s.hpu.lastCode ∧ (returnFrame t s).hpu.statSel = s.hpu.statSel
    ∧ (returnFrame t s).hpu.statMode = s.hpu.statMode ∧ (returnFrame t s).hpu.memberCopy = s.hpu.memberCopy
    ∧ (returnFrame t s).hpu.mergeCopy = s.hpu.mergeCopy ∧ (returnFrame t s).hpu.readWord = s.hpu.readWord
    ∧ (returnFrame t s).hpu.resetnLow = s.hpu.resetnLow ∧ (returnFrame t s).acu = s.acu
    ∧ (returnFrame t s).pending = s.pending
    ∧ (returnFrame t s).pins = s.pins := by
  simp only [returnFrame]
  (repeat' split) <;> simp

@[simp] theorem enterBackoff_frame (attempt : Nat) (s : State) :
    (enterBackoff attempt s).stu = s.stu ∧ (enterBackoff attempt s).ru = s.ru ∧ (enterBackoff attempt s).mu = s.mu
    ∧ (enterBackoff attempt s).rcu = s.rcu ∧ (enterBackoff attempt s).hc = s.hc
    ∧ (enterBackoff attempt s).bac.line = s.bac.line ∧ (enterBackoff attempt s).bac.receiver = s.bac.receiver
    ∧ (enterBackoff attempt s).bac.inbound = s.bac.inbound ∧ (enterBackoff attempt s).bac.holdItem = s.bac.holdItem
    ∧ (enterBackoff attempt s).bac.rosterItem = s.bac.rosterItem
    ∧ (enterBackoff attempt s).bac.scanItems = s.bac.scanItems ∧ (enterBackoff attempt s).bac.inTx = s.bac.inTx
    ∧ (enterBackoff attempt s).bac.resetPending = s.bac.resetPending
    ∧ (enterBackoff attempt s).bac.idleTime = s.bac.idleTime ∧ (enterBackoff attempt s).spc = s.spc
    ∧ (enterBackoff attempt s).cs = s.cs ∧ (enterBackoff attempt s).hpu = s.hpu ∧ (enterBackoff attempt s).acu = s.acu
    ∧ (enterBackoff attempt s).pending = s.pending
    ∧ (enterBackoff attempt s).pins = s.pins := by
  simp only [enterBackoff]
  (repeat' split) <;> simp

@[simp] theorem jamEndEffect_frame (lineBusy : Bool) (s : State) :
    (jamEndEffect lineBusy s).stu = s.stu ∧ (jamEndEffect lineBusy s).ru = s.ru ∧ (jamEndEffect lineBusy s).mu = s.mu
    ∧ (jamEndEffect lineBusy s).rcu = s.rcu ∧ (jamEndEffect lineBusy s).hc = s.hc
    ∧ (jamEndEffect lineBusy s).bac.inbound = s.bac.inbound
    ∧ (jamEndEffect lineBusy s).bac.resetPending = s.bac.resetPending ∧ (jamEndEffect lineBusy s).spc = s.spc
    ∧ (jamEndEffect lineBusy s).cs = s.cs ∧ (jamEndEffect lineBusy s).hpu.transaction = s.hpu.transaction
    ∧ (jamEndEffect lineBusy s).hpu.events = s.hpu.events ∧ (jamEndEffect lineBusy s).hpu.mask = s.hpu.mask
    ∧ (jamEndEffect lineBusy s).hpu.result = s.hpu.result ∧ (jamEndEffect lineBusy s).hpu.lastCode = s.hpu.lastCode
    ∧ (jamEndEffect lineBusy s).hpu.statSel = s.hpu.statSel ∧ (jamEndEffect lineBusy s).hpu.statMode = s.hpu.statMode
    ∧ (jamEndEffect lineBusy s).hpu.memberCopy = s.hpu.memberCopy
    ∧ (jamEndEffect lineBusy s).hpu.mergeCopy = s.hpu.mergeCopy
    ∧ (jamEndEffect lineBusy s).hpu.readWord = s.hpu.readWord
    ∧ (jamEndEffect lineBusy s).hpu.resetnLow = s.hpu.resetnLow ∧ (jamEndEffect lineBusy s).acu = s.acu
    ∧ (jamEndEffect lineBusy s).pending = s.pending
    ∧ (jamEndEffect lineBusy s).pins = s.pins := by
  simp only [jamEndEffect]
  (repeat' split) <;> simp

@[simp] theorem backoffEndEffect_frame (s : State) :
    (backoffEndEffect s).stu = s.stu ∧ (backoffEndEffect s).ru = s.ru ∧ (backoffEndEffect s).mu = s.mu
    ∧ (backoffEndEffect s).rcu = s.rcu ∧ (backoffEndEffect s).hc = s.hc ∧ (backoffEndEffect s).bac.line = s.bac.line
    ∧ (backoffEndEffect s).bac.receiver = s.bac.receiver ∧ (backoffEndEffect s).bac.inbound = s.bac.inbound
    ∧ (backoffEndEffect s).bac.holdItem = s.bac.holdItem ∧ (backoffEndEffect s).bac.rosterItem = s.bac.rosterItem
    ∧ (backoffEndEffect s).bac.scanItems = s.bac.scanItems ∧ (backoffEndEffect s).bac.inTx = s.bac.inTx
    ∧ (backoffEndEffect s).bac.resetPending = s.bac.resetPending ∧ (backoffEndEffect s).bac.idleTime = s.bac.idleTime
    ∧ (backoffEndEffect s).spc = s.spc ∧ (backoffEndEffect s).cs = s.cs ∧ (backoffEndEffect s).hpu = s.hpu
    ∧ (backoffEndEffect s).acu = s.acu ∧ (backoffEndEffect s).pending = s.pending
    ∧ (backoffEndEffect s).pins = s.pins := by
  simp only [backoffEndEffect]
  (repeat' split) <;> simp

@[simp] theorem overlap_frame (s : State) :
    (overlap s).stu = s.stu ∧ (overlap s).ru = s.ru ∧ (overlap s).mu = s.mu ∧ (overlap s).rcu = s.rcu
    ∧ (overlap s).hc = s.hc ∧ (overlap s).bac.line = s.bac.line ∧ (overlap s).bac.receiver = s.bac.receiver
    ∧ (overlap s).bac.transmitter = s.bac.transmitter ∧ (overlap s).bac.inbound = s.bac.inbound
    ∧ (overlap s).bac.holdItem = s.bac.holdItem ∧ (overlap s).bac.rosterItem = s.bac.rosterItem
    ∧ (overlap s).bac.scanItems = s.bac.scanItems ∧ (overlap s).bac.busyMark = s.bac.busyMark
    ∧ (overlap s).bac.backoff = s.bac.backoff ∧ (overlap s).bac.resetPending = s.bac.resetPending
    ∧ (overlap s).bac.idleTime = s.bac.idleTime ∧ (overlap s).bac.phaseTime = s.bac.phaseTime
    ∧ (overlap s).spc = s.spc ∧ (overlap s).cs = s.cs ∧ (overlap s).hpu = s.hpu ∧ (overlap s).acu = s.acu
    ∧ (overlap s).pending = s.pending ∧ (overlap s).pins = s.pins := by
  simp only [overlap]
  (repeat' split) <;> simp

@[simp] theorem carrierStartEffect_frame (s : State) :
    (carrierStartEffect s).stu = s.stu ∧ (carrierStartEffect s).ru = s.ru ∧ (carrierStartEffect s).mu = s.mu
    ∧ (carrierStartEffect s).rcu = s.rcu ∧ (carrierStartEffect s).hc = s.hc
    ∧ (carrierStartEffect s).bac.transmitter = s.bac.transmitter ∧ (carrierStartEffect s).bac.inbound = s.bac.inbound
    ∧ (carrierStartEffect s).bac.holdItem = s.bac.holdItem ∧ (carrierStartEffect s).bac.rosterItem = s.bac.rosterItem
    ∧ (carrierStartEffect s).bac.scanItems = s.bac.scanItems
    ∧ (carrierStartEffect s).bac.busyMark = s.bac.busyMark ∧ (carrierStartEffect s).bac.backoff = s.bac.backoff
    ∧ (carrierStartEffect s).bac.resetPending = s.bac.resetPending ∧ (carrierStartEffect s).spc = s.spc
    ∧ (carrierStartEffect s).cs = s.cs ∧ (carrierStartEffect s).hpu = s.hpu ∧ (carrierStartEffect s).acu = s.acu
    ∧ (carrierStartEffect s).pending = s.pending
    ∧ (carrierStartEffect s).pins = s.pins := by
  simp only [carrierStartEffect]
  (repeat' split) <;> simp

@[simp] theorem lineIdleEffect_frame (s : State) :
    (lineIdleEffect s).stu = s.stu ∧ (lineIdleEffect s).ru = s.ru ∧ (lineIdleEffect s).mu = s.mu
    ∧ (lineIdleEffect s).rcu = s.rcu ∧ (lineIdleEffect s).hc = s.hc
    ∧ (lineIdleEffect s).bac.transmitter = s.bac.transmitter ∧ (lineIdleEffect s).bac.inbound = s.bac.inbound
    ∧ (lineIdleEffect s).bac.holdItem = s.bac.holdItem ∧ (lineIdleEffect s).bac.rosterItem = s.bac.rosterItem
    ∧ (lineIdleEffect s).bac.scanItems = s.bac.scanItems ∧ (lineIdleEffect s).bac.inTx = s.bac.inTx
    ∧ (lineIdleEffect s).bac.busyMark = s.bac.busyMark ∧ (lineIdleEffect s).bac.backoff = s.bac.backoff
    ∧ (lineIdleEffect s).bac.resetPending = s.bac.resetPending ∧ (lineIdleEffect s).spc = s.spc
    ∧ (lineIdleEffect s).cs = s.cs ∧ (lineIdleEffect s).hpu = s.hpu ∧ (lineIdleEffect s).acu = s.acu
    ∧ (lineIdleEffect s).pending = s.pending
    ∧ (lineIdleEffect s).pins = s.pins := by
  simp only [lineIdleEffect]
  (repeat' split) <;> simp

@[simp] theorem convertPulseEndEffect_frame (s : State) :
    (convertPulseEndEffect s).stu = s.stu ∧ (convertPulseEndEffect s).ru = s.ru ∧ (convertPulseEndEffect s).mu = s.mu
    ∧ (convertPulseEndEffect s).rcu = s.rcu ∧ (convertPulseEndEffect s).hc = s.hc
    ∧ (convertPulseEndEffect s).bac = s.bac ∧ (convertPulseEndEffect s).spc.tag = s.spc.tag
    ∧ (convertPulseEndEffect s).spc.ready = s.spc.ready ∧ (convertPulseEndEffect s).spc.raw = s.spc.raw
    ∧ (convertPulseEndEffect s).spc.table = s.spc.table ∧ (convertPulseEndEffect s).spc.phase = s.spc.phase
    ∧ (convertPulseEndEffect s).spc.count = s.spc.count ∧ (convertPulseEndEffect s).spc.sums = s.spc.sums
    ∧ (convertPulseEndEffect s).spc.result = s.spc.result ∧ (convertPulseEndEffect s).spc.insel = s.spc.insel
    ∧ (convertPulseEndEffect s).spc.elapsed = s.spc.elapsed ∧ (convertPulseEndEffect s).cs = s.cs
    ∧ (convertPulseEndEffect s).hpu = s.hpu ∧ (convertPulseEndEffect s).acu = s.acu
    ∧ (convertPulseEndEffect s).pending = s.pending
    ∧ (convertPulseEndEffect s).pins = s.pins
    ∧ (convertPulseEndEffect s).spc.sdata = s.spc.sdata
    ∧ (convertPulseEndEffect s).spc.clocked = s.spc.clocked
    ∧ (convertPulseEndEffect s).spc.clockTime = s.spc.clockTime := by
  simp only [convertPulseEndEffect]
  (repeat' split) <;> simp

@[simp] theorem setSdata_frame (c : Channel) (high : Bool) (s : State) :
    (setSdata c high s).stu = s.stu ∧ (setSdata c high s).ru = s.ru ∧ (setSdata c high s).mu = s.mu
    ∧ (setSdata c high s).rcu = s.rcu ∧ (setSdata c high s).hc = s.hc ∧ (setSdata c high s).bac = s.bac
    ∧ (setSdata c high s).spc.capture = s.spc.capture ∧ (setSdata c high s).spc.tag = s.spc.tag
    ∧ (setSdata c high s).spc.ready = s.spc.ready ∧ (setSdata c high s).spc.clocked = s.spc.clocked
    ∧ (setSdata c high s).spc.clockTime = s.spc.clockTime ∧ (setSdata c high s).spc.raw = s.spc.raw
    ∧ (setSdata c high s).spc.table = s.spc.table ∧ (setSdata c high s).spc.phase = s.spc.phase
    ∧ (setSdata c high s).spc.count = s.spc.count ∧ (setSdata c high s).spc.sums = s.spc.sums
    ∧ (setSdata c high s).spc.result = s.spc.result ∧ (setSdata c high s).spc.insel = s.spc.insel
    ∧ (setSdata c high s).spc.elapsed = s.spc.elapsed ∧ (setSdata c high s).cs = s.cs
    ∧ (setSdata c high s).hpu = s.hpu ∧ (setSdata c high s).acu = s.acu ∧ (setSdata c high s).pending = s.pending
    ∧ (setSdata c high s).pins = s.pins := by
  simp [setSdata]

@[simp] theorem startClocking_frame (s : State) :
    (startClocking s).stu = s.stu ∧ (startClocking s).ru = s.ru ∧ (startClocking s).mu = s.mu
    ∧ (startClocking s).rcu = s.rcu ∧ (startClocking s).hc = s.hc ∧ (startClocking s).bac = s.bac
    ∧ (startClocking s).spc.tag = s.spc.tag ∧ (startClocking s).spc.ready = s.spc.ready
    ∧ (startClocking s).spc.raw = s.spc.raw ∧ (startClocking s).spc.table = s.spc.table
    ∧ (startClocking s).spc.phase = s.spc.phase ∧ (startClocking s).spc.count = s.spc.count
    ∧ (startClocking s).spc.sums = s.spc.sums ∧ (startClocking s).spc.result = s.spc.result
    ∧ (startClocking s).spc.insel = s.spc.insel ∧ (startClocking s).spc.elapsed = s.spc.elapsed
    ∧ (startClocking s).cs = s.cs ∧ (startClocking s).hpu = s.hpu ∧ (startClocking s).acu = s.acu
    ∧ (startClocking s).pending = s.pending
    ∧ (startClocking s).pins = s.pins
    ∧ (startClocking s).spc.sdata = s.spc.sdata := by
  simp only [startClocking]
  (repeat' split) <;> simp

@[simp] theorem channelReadyEffect_frame (c : Channel) (s : State) :
    (channelReadyEffect c s).stu = s.stu ∧ (channelReadyEffect c s).ru = s.ru ∧ (channelReadyEffect c s).mu = s.mu
    ∧ (channelReadyEffect c s).rcu = s.rcu ∧ (channelReadyEffect c s).hc = s.hc ∧ (channelReadyEffect c s).bac = s.bac
    ∧ (channelReadyEffect c s).spc.tag = s.spc.tag ∧ (channelReadyEffect c s).spc.raw = s.spc.raw
    ∧ (channelReadyEffect c s).spc.table = s.spc.table ∧ (channelReadyEffect c s).spc.phase = s.spc.phase
    ∧ (channelReadyEffect c s).spc.count = s.spc.count ∧ (channelReadyEffect c s).spc.sums = s.spc.sums
    ∧ (channelReadyEffect c s).spc.result = s.spc.result ∧ (channelReadyEffect c s).spc.insel = s.spc.insel
    ∧ (channelReadyEffect c s).spc.elapsed = s.spc.elapsed ∧ (channelReadyEffect c s).cs = s.cs
    ∧ (channelReadyEffect c s).hpu = s.hpu ∧ (channelReadyEffect c s).acu = s.acu
    ∧ (channelReadyEffect c s).pending = s.pending
    ∧ (channelReadyEffect c s).pins = s.pins := by
  simp only [channelReadyEffect]
  (repeat' split) <;> simp

@[simp] theorem sdataChanges_frame (c : Channel) (high : Bool) (s : State) :
    (sdataChanges c high s).stu = s.stu ∧ (sdataChanges c high s).ru = s.ru ∧ (sdataChanges c high s).mu = s.mu
    ∧ (sdataChanges c high s).rcu = s.rcu ∧ (sdataChanges c high s).hc = s.hc ∧ (sdataChanges c high s).bac = s.bac
    ∧ (sdataChanges c high s).spc.tag = s.spc.tag ∧ (sdataChanges c high s).spc.raw = s.spc.raw
    ∧ (sdataChanges c high s).spc.table = s.spc.table ∧ (sdataChanges c high s).spc.phase = s.spc.phase
    ∧ (sdataChanges c high s).spc.count = s.spc.count ∧ (sdataChanges c high s).spc.sums = s.spc.sums
    ∧ (sdataChanges c high s).spc.result = s.spc.result ∧ (sdataChanges c high s).spc.insel = s.spc.insel
    ∧ (sdataChanges c high s).spc.elapsed = s.spc.elapsed ∧ (sdataChanges c high s).cs = s.cs
    ∧ (sdataChanges c high s).hpu = s.hpu ∧ (sdataChanges c high s).acu = s.acu
    ∧ (sdataChanges c high s).pending = s.pending ∧ (sdataChanges c high s).pins = s.pins := by
  simp only [sdataChanges]
  (repeat' split) <;> simp

@[simp] theorem sclkPulses_frame (s : State) :
    (sclkPulses s).stu = s.stu ∧ (sclkPulses s).ru = s.ru ∧ (sclkPulses s).mu = s.mu ∧ (sclkPulses s).rcu = s.rcu
    ∧ (sclkPulses s).hc = s.hc ∧ (sclkPulses s).bac = s.bac ∧ (sclkPulses s).spc.capture = s.spc.capture
    ∧ (sclkPulses s).spc.tag = s.spc.tag ∧ (sclkPulses s).spc.ready = s.spc.ready
    ∧ (sclkPulses s).spc.sdata = s.spc.sdata ∧ (sclkPulses s).spc.clockTime = s.spc.clockTime
    ∧ (sclkPulses s).spc.raw = s.spc.raw ∧ (sclkPulses s).spc.table = s.spc.table
    ∧ (sclkPulses s).spc.phase = s.spc.phase ∧ (sclkPulses s).spc.count = s.spc.count
    ∧ (sclkPulses s).spc.sums = s.spc.sums ∧ (sclkPulses s).spc.result = s.spc.result
    ∧ (sclkPulses s).spc.insel = s.spc.insel ∧ (sclkPulses s).spc.elapsed = s.spc.elapsed ∧ (sclkPulses s).cs = s.cs
    ∧ (sclkPulses s).hpu = s.hpu ∧ (sclkPulses s).acu = s.acu ∧ (sclkPulses s).pending = s.pending
    ∧ (sclkPulses s).pins = s.pins := by
  simp only [sclkPulses]
  (repeat' split) <;> simp

@[simp] theorem sumCapture_frame (raw : Vector RawValue 4) (s : State) :
    (sumCapture raw s).stu = s.stu ∧ (sumCapture raw s).ru = s.ru ∧ (sumCapture raw s).mu = s.mu
    ∧ (sumCapture raw s).rcu = s.rcu ∧ (sumCapture raw s).hc = s.hc ∧ (sumCapture raw s).bac = s.bac
    ∧ (sumCapture raw s).spc.capture = s.spc.capture ∧ (sumCapture raw s).spc.tag = s.spc.tag
    ∧ (sumCapture raw s).spc.ready = s.spc.ready ∧ (sumCapture raw s).spc.raw = s.spc.raw
    ∧ (sumCapture raw s).spc.table = s.spc.table ∧ (sumCapture raw s).spc.phase = s.spc.phase
    ∧ (sumCapture raw s).spc.count = s.spc.count ∧ (sumCapture raw s).spc.result = s.spc.result
    ∧ (sumCapture raw s).spc.insel = s.spc.insel ∧ (sumCapture raw s).spc.elapsed = s.spc.elapsed
    ∧ (sumCapture raw s).cs = s.cs ∧ (sumCapture raw s).hpu = s.hpu ∧ (sumCapture raw s).acu = s.acu
    ∧ (sumCapture raw s).pending = s.pending
    ∧ (sumCapture raw s).pins = s.pins
    ∧ (sumCapture raw s).spc.sdata = s.spc.sdata ∧ (sumCapture raw s).spc.clocked = s.spc.clocked
    ∧ (sumCapture raw s).spc.clockTime = s.spc.clockTime := by
  simp only [sumCapture]
  (repeat' split) <;> simp

@[simp] theorem evaluation_frame (s : State) :
    (evaluation s).stu.gate = s.stu.gate ∧ (evaluation s).stu.gateHigh = s.stu.gateHigh
    ∧ (evaluation s).stu.faultSeen = s.stu.faultSeen ∧ (evaluation s).stu.guard = s.stu.guard
    ∧ (evaluation s).stu.take = s.stu.take ∧ (evaluation s).stu.index = s.stu.index
    ∧ (evaluation s).stu.formed = s.stu.formed ∧ (evaluation s).stu.stall = s.stu.stall
    ∧ (evaluation s).stu.stallFlag = s.stu.stallFlag ∧ (evaluation s).stu.soloMade = s.stu.soloMade
    ∧ (evaluation s).stu.time = s.stu.time ∧ (evaluation s).stu.boundaryTime = s.stu.boundaryTime
    ∧ (evaluation s).stu.startSerial = s.stu.startSerial ∧ (evaluation s).ru = s.ru ∧ (evaluation s).mu = s.mu
    ∧ (evaluation s).rcu = s.rcu ∧ (evaluation s).hc = s.hc ∧ (evaluation s).bac = s.bac
    ∧ (evaluation s).spc.capture = s.spc.capture ∧ (evaluation s).spc.tag = s.spc.tag
    ∧ (evaluation s).spc.ready = s.spc.ready ∧ (evaluation s).spc.raw = s.spc.raw
    ∧ (evaluation s).spc.elapsed = s.spc.elapsed ∧ (evaluation s).cs = s.cs
    ∧ (evaluation s).hpu.transaction = s.hpu.transaction ∧ (evaluation s).hpu.mask = s.hpu.mask
    ∧ (evaluation s).hpu.result = s.hpu.result ∧ (evaluation s).hpu.lastCode = s.hpu.lastCode
    ∧ (evaluation s).hpu.counters = s.hpu.counters ∧ (evaluation s).hpu.statSel = s.hpu.statSel
    ∧ (evaluation s).hpu.statMode = s.hpu.statMode ∧ (evaluation s).hpu.memberCopy = s.hpu.memberCopy
    ∧ (evaluation s).hpu.mergeCopy = s.hpu.mergeCopy ∧ (evaluation s).hpu.readWord = s.hpu.readWord
    ∧ (evaluation s).hpu.resetnLow = s.hpu.resetnLow ∧ (evaluation s).acu = s.acu ∧ (evaluation s).pending = s.pending
    ∧ (evaluation s).pins = s.pins
    ∧ (evaluation s).spc.sdata = s.spc.sdata ∧ (evaluation s).spc.clocked = s.spc.clocked
    ∧ (evaluation s).spc.clockTime = s.spc.clockTime := by
  simp only [evaluation]
  (repeat' split) <;> simp

@[simp] theorem evaluateAtEnd_frame (tag : Option CaptureTag) (s : State) :
    (evaluateAtEnd tag s).stu.gate = s.stu.gate ∧ (evaluateAtEnd tag s).stu.gateHigh = s.stu.gateHigh
    ∧ (evaluateAtEnd tag s).stu.faultSeen = s.stu.faultSeen ∧ (evaluateAtEnd tag s).stu.guard = s.stu.guard
    ∧ (evaluateAtEnd tag s).stu.take = s.stu.take ∧ (evaluateAtEnd tag s).stu.index = s.stu.index
    ∧ (evaluateAtEnd tag s).stu.formed = s.stu.formed ∧ (evaluateAtEnd tag s).stu.stall = s.stu.stall
    ∧ (evaluateAtEnd tag s).stu.stallFlag = s.stu.stallFlag ∧ (evaluateAtEnd tag s).stu.soloMade = s.stu.soloMade
    ∧ (evaluateAtEnd tag s).stu.time = s.stu.time ∧ (evaluateAtEnd tag s).stu.boundaryTime = s.stu.boundaryTime
    ∧ (evaluateAtEnd tag s).stu.startSerial = s.stu.startSerial ∧ (evaluateAtEnd tag s).ru = s.ru
    ∧ (evaluateAtEnd tag s).mu = s.mu ∧ (evaluateAtEnd tag s).rcu = s.rcu ∧ (evaluateAtEnd tag s).hc = s.hc
    ∧ (evaluateAtEnd tag s).bac = s.bac ∧ (evaluateAtEnd tag s).spc.capture = s.spc.capture
    ∧ (evaluateAtEnd tag s).spc.tag = s.spc.tag ∧ (evaluateAtEnd tag s).spc.ready = s.spc.ready
    ∧ (evaluateAtEnd tag s).spc.raw = s.spc.raw ∧ (evaluateAtEnd tag s).spc.elapsed = s.spc.elapsed
    ∧ (evaluateAtEnd tag s).cs = s.cs ∧ (evaluateAtEnd tag s).hpu.transaction = s.hpu.transaction
    ∧ (evaluateAtEnd tag s).hpu.mask = s.hpu.mask ∧ (evaluateAtEnd tag s).hpu.result = s.hpu.result
    ∧ (evaluateAtEnd tag s).hpu.lastCode = s.hpu.lastCode ∧ (evaluateAtEnd tag s).hpu.counters = s.hpu.counters
    ∧ (evaluateAtEnd tag s).hpu.statSel = s.hpu.statSel ∧ (evaluateAtEnd tag s).hpu.statMode = s.hpu.statMode
    ∧ (evaluateAtEnd tag s).hpu.memberCopy = s.hpu.memberCopy ∧ (evaluateAtEnd tag s).hpu.mergeCopy = s.hpu.mergeCopy
    ∧ (evaluateAtEnd tag s).hpu.readWord = s.hpu.readWord ∧ (evaluateAtEnd tag s).hpu.resetnLow = s.hpu.resetnLow
    ∧ (evaluateAtEnd tag s).acu = s.acu ∧ (evaluateAtEnd tag s).pending = s.pending
    ∧ (evaluateAtEnd tag s).pins = s.pins
    ∧ (evaluateAtEnd tag s).spc.sdata = s.spc.sdata ∧ (evaluateAtEnd tag s).spc.clocked = s.spc.clocked
    ∧ (evaluateAtEnd tag s).spc.clockTime = s.spc.clockTime := by
  simp only [evaluateAtEnd]
  (repeat' split) <;> simp

@[simp] theorem holdRaw_frame (raw : Vector RawValue 4) (sdata : SdataLevels) (s : State) :
    (holdRaw raw sdata s).stu = s.stu ∧ (holdRaw raw sdata s).ru = s.ru ∧ (holdRaw raw sdata s).mu = s.mu ∧ (holdRaw raw sdata s).rcu = s.rcu
    ∧ (holdRaw raw sdata s).hc = s.hc ∧ (holdRaw raw sdata s).bac = s.bac ∧ (holdRaw raw sdata s).spc.tag = s.spc.tag
    ∧ (holdRaw raw sdata s).spc.ready = s.spc.ready ∧ (holdRaw raw sdata s).spc.table = s.spc.table
    ∧ (holdRaw raw sdata s).spc.phase = s.spc.phase ∧ (holdRaw raw sdata s).spc.count = s.spc.count
    ∧ (holdRaw raw sdata s).spc.sums = s.spc.sums ∧ (holdRaw raw sdata s).spc.result = s.spc.result
    ∧ (holdRaw raw sdata s).spc.insel = s.spc.insel ∧ (holdRaw raw sdata s).spc.elapsed = s.spc.elapsed
    ∧ (holdRaw raw sdata s).cs = s.cs ∧ (holdRaw raw sdata s).hpu = s.hpu ∧ (holdRaw raw sdata s).acu = s.acu
    ∧ (holdRaw raw sdata s).pending = s.pending
    ∧ (holdRaw raw sdata s).pins = s.pins
    ∧ (holdRaw raw sdata s).spc.clockTime = s.spc.clockTime := by
  simp only [holdRaw]
  simp

@[simp] theorem completeCapture_frame (raw : Vector RawValue 4) (sdata : SdataLevels) (s : State) :
    (completeCapture raw sdata s).stu.gateHigh = s.stu.gateHigh
    ∧ (completeCapture raw sdata s).stu.faultSeen = s.stu.faultSeen
    ∧ (completeCapture raw sdata s).stu.index = s.stu.index
    ∧ (completeCapture raw sdata s).stu.soloMade = s.stu.soloMade
    ∧ (completeCapture raw sdata s).stu.time = s.stu.time
    ∧ (completeCapture raw sdata s).stu.boundaryTime = s.stu.boundaryTime
    ∧ (completeCapture raw sdata s).stu.startSerial = s.stu.startSerial
    ∧ (completeCapture raw sdata s).ru.selector = s.ru.selector
    ∧ (completeCapture raw sdata s).mu.suspended = s.mu.suspended
    ∧ (completeCapture raw sdata s).mu.selector = s.mu.selector
    ∧ (completeCapture raw sdata s).rcu.projFirst = s.rcu.projFirst
    ∧ (completeCapture raw sdata s).rcu.projCount = s.rcu.projCount
    ∧ (completeCapture raw sdata s).hc.freezeReason = s.hc.freezeReason
    ∧ (completeCapture raw sdata s).hc.lastSent = s.hc.lastSent ∧ (completeCapture raw sdata s).bac.line = s.bac.line
    ∧ (completeCapture raw sdata s).bac.receiver = s.bac.receiver
    ∧ (completeCapture raw sdata s).bac.inbound = s.bac.inbound ∧ (completeCapture raw sdata s).bac.inTx = s.bac.inTx
    ∧ (completeCapture raw sdata s).bac.backoff = s.bac.backoff
    ∧ (completeCapture raw sdata s).bac.resetPending = s.bac.resetPending
    ∧ (completeCapture raw sdata s).bac.idleTime = s.bac.idleTime ∧ (completeCapture raw sdata s).spc.tag = s.spc.tag
    ∧ (completeCapture raw sdata s).spc.ready = s.spc.ready
    ∧ (completeCapture raw sdata s).spc.elapsed = s.spc.elapsed ∧ (completeCapture raw sdata s).cs = s.cs
    ∧ (completeCapture raw sdata s).hpu.transaction = s.hpu.transaction
    ∧ (completeCapture raw sdata s).hpu.mask = s.hpu.mask ∧ (completeCapture raw sdata s).hpu.result = s.hpu.result
    ∧ (completeCapture raw sdata s).hpu.lastCode = s.hpu.lastCode
    ∧ (completeCapture raw sdata s).hpu.statSel = s.hpu.statSel
    ∧ (completeCapture raw sdata s).hpu.statMode = s.hpu.statMode
    ∧ (completeCapture raw sdata s).hpu.memberCopy = s.hpu.memberCopy
    ∧ (completeCapture raw sdata s).hpu.mergeCopy = s.hpu.mergeCopy
    ∧ (completeCapture raw sdata s).hpu.readWord = s.hpu.readWord
    ∧ (completeCapture raw sdata s).hpu.resetnLow = s.hpu.resetnLow
    ∧ (completeCapture raw sdata s).acu.reason = s.acu.reason ∧ (completeCapture raw sdata s).pending = s.pending
    ∧ (completeCapture raw sdata s).pins = s.pins
    ∧ (completeCapture raw sdata s).spc.clockTime = s.spc.clockTime := by
  simp only [completeCapture]
  simp

@[simp] theorem captureCompleteEffect_frame (coming : List SdataLevels) (s : State) :
    (captureCompleteEffect coming s).stu.gateHigh = s.stu.gateHigh
    ∧ (captureCompleteEffect coming s).stu.faultSeen = s.stu.faultSeen
    ∧ (captureCompleteEffect coming s).stu.index = s.stu.index
    ∧ (captureCompleteEffect coming s).stu.soloMade = s.stu.soloMade
    ∧ (captureCompleteEffect coming s).stu.time = s.stu.time
    ∧ (captureCompleteEffect coming s).stu.boundaryTime = s.stu.boundaryTime
    ∧ (captureCompleteEffect coming s).stu.startSerial = s.stu.startSerial
    ∧ (captureCompleteEffect coming s).ru.selector = s.ru.selector
    ∧ (captureCompleteEffect coming s).mu.suspended = s.mu.suspended
    ∧ (captureCompleteEffect coming s).mu.selector = s.mu.selector
    ∧ (captureCompleteEffect coming s).rcu.projFirst = s.rcu.projFirst
    ∧ (captureCompleteEffect coming s).rcu.projCount = s.rcu.projCount
    ∧ (captureCompleteEffect coming s).hc.freezeReason = s.hc.freezeReason
    ∧ (captureCompleteEffect coming s).hc.lastSent = s.hc.lastSent ∧ (captureCompleteEffect coming s).bac.line = s.bac.line
    ∧ (captureCompleteEffect coming s).bac.receiver = s.bac.receiver
    ∧ (captureCompleteEffect coming s).bac.inbound = s.bac.inbound ∧ (captureCompleteEffect coming s).bac.inTx = s.bac.inTx
    ∧ (captureCompleteEffect coming s).bac.backoff = s.bac.backoff
    ∧ (captureCompleteEffect coming s).bac.resetPending = s.bac.resetPending
    ∧ (captureCompleteEffect coming s).bac.idleTime = s.bac.idleTime ∧ (captureCompleteEffect coming s).spc.tag = s.spc.tag
    ∧ (captureCompleteEffect coming s).spc.ready = s.spc.ready
    ∧ (captureCompleteEffect coming s).spc.elapsed = s.spc.elapsed ∧ (captureCompleteEffect coming s).cs = s.cs
    ∧ (captureCompleteEffect coming s).hpu.transaction = s.hpu.transaction
    ∧ (captureCompleteEffect coming s).hpu.mask = s.hpu.mask ∧ (captureCompleteEffect coming s).hpu.result = s.hpu.result
    ∧ (captureCompleteEffect coming s).hpu.lastCode = s.hpu.lastCode
    ∧ (captureCompleteEffect coming s).hpu.statSel = s.hpu.statSel
    ∧ (captureCompleteEffect coming s).hpu.statMode = s.hpu.statMode
    ∧ (captureCompleteEffect coming s).hpu.memberCopy = s.hpu.memberCopy
    ∧ (captureCompleteEffect coming s).hpu.mergeCopy = s.hpu.mergeCopy
    ∧ (captureCompleteEffect coming s).hpu.readWord = s.hpu.readWord
    ∧ (captureCompleteEffect coming s).hpu.resetnLow = s.hpu.resetnLow
    ∧ (captureCompleteEffect coming s).acu.reason = s.acu.reason ∧ (captureCompleteEffect coming s).pending = s.pending
    ∧ (captureCompleteEffect coming s).pins = s.pins
    ∧ (captureCompleteEffect coming s).spc.clockTime = s.spc.clockTime := by
  simp only [captureCompleteEffect]
  (repeat' split) <;> simp

@[simp] theorem sampleTimeoutEffect_frame (s : State) :
    (sampleTimeoutEffect s).stu.gateHigh = s.stu.gateHigh ∧ (sampleTimeoutEffect s).stu.faultSeen = s.stu.faultSeen
    ∧ (sampleTimeoutEffect s).stu.index = s.stu.index ∧ (sampleTimeoutEffect s).stu.soloMade = s.stu.soloMade
    ∧ (sampleTimeoutEffect s).stu.time = s.stu.time ∧ (sampleTimeoutEffect s).stu.boundaryTime = s.stu.boundaryTime
    ∧ (sampleTimeoutEffect s).stu.startSerial = s.stu.startSerial
    ∧ (sampleTimeoutEffect s).ru.selector = s.ru.selector ∧ (sampleTimeoutEffect s).mu.suspended = s.mu.suspended
    ∧ (sampleTimeoutEffect s).mu.selector = s.mu.selector ∧ (sampleTimeoutEffect s).rcu.projFirst = s.rcu.projFirst
    ∧ (sampleTimeoutEffect s).rcu.projCount = s.rcu.projCount
    ∧ (sampleTimeoutEffect s).hc.freezeReason = s.hc.freezeReason
    ∧ (sampleTimeoutEffect s).hc.lastSent = s.hc.lastSent ∧ (sampleTimeoutEffect s).bac.line = s.bac.line
    ∧ (sampleTimeoutEffect s).bac.receiver = s.bac.receiver ∧ (sampleTimeoutEffect s).bac.inbound = s.bac.inbound
    ∧ (sampleTimeoutEffect s).bac.inTx = s.bac.inTx ∧ (sampleTimeoutEffect s).bac.backoff = s.bac.backoff
    ∧ (sampleTimeoutEffect s).bac.resetPending = s.bac.resetPending
    ∧ (sampleTimeoutEffect s).bac.idleTime = s.bac.idleTime ∧ (sampleTimeoutEffect s).spc.tag = s.spc.tag
    ∧ (sampleTimeoutEffect s).spc.ready = s.spc.ready ∧ (sampleTimeoutEffect s).spc.raw = s.spc.raw
    ∧ (sampleTimeoutEffect s).spc.table = s.spc.table ∧ (sampleTimeoutEffect s).spc.elapsed = s.spc.elapsed
    ∧ (sampleTimeoutEffect s).cs = s.cs ∧ (sampleTimeoutEffect s).hpu.transaction = s.hpu.transaction
    ∧ (sampleTimeoutEffect s).hpu.mask = s.hpu.mask ∧ (sampleTimeoutEffect s).hpu.result = s.hpu.result
    ∧ (sampleTimeoutEffect s).hpu.lastCode = s.hpu.lastCode ∧ (sampleTimeoutEffect s).hpu.statSel = s.hpu.statSel
    ∧ (sampleTimeoutEffect s).hpu.statMode = s.hpu.statMode
    ∧ (sampleTimeoutEffect s).hpu.memberCopy = s.hpu.memberCopy
    ∧ (sampleTimeoutEffect s).hpu.mergeCopy = s.hpu.mergeCopy ∧ (sampleTimeoutEffect s).hpu.readWord = s.hpu.readWord
    ∧ (sampleTimeoutEffect s).hpu.resetnLow = s.hpu.resetnLow ∧ (sampleTimeoutEffect s).acu.reason = s.acu.reason
    ∧ (sampleTimeoutEffect s).pending = s.pending
    ∧ (sampleTimeoutEffect s).pins = s.pins
    ∧ (sampleTimeoutEffect s).spc.sdata = s.spc.sdata ∧ (sampleTimeoutEffect s).spc.clocked = s.spc.clocked
    ∧ (sampleTimeoutEffect s).spc.clockTime = s.spc.clockTime := by
  simp only [sampleTimeoutEffect]
  (repeat' split) <;> simp

@[simp] theorem soloOn_frame (s : State) :
    (soloOn s).stu.gate = s.stu.gate ∧ (soloOn s).stu.gateHigh = s.stu.gateHigh
    ∧ (soloOn s).stu.faultSeen = s.stu.faultSeen ∧ (soloOn s).stu.guard = s.stu.guard
    ∧ (soloOn s).stu.take = s.stu.take ∧ (soloOn s).stu.index = s.stu.index ∧ (soloOn s).stu.stall = s.stu.stall
    ∧ (soloOn s).stu.stallFlag = s.stu.stallFlag ∧ (soloOn s).stu.time = s.stu.time
    ∧ (soloOn s).stu.boundaryTime = s.stu.boundaryTime ∧ (soloOn s).stu.startSerial = s.stu.startSerial
    ∧ (soloOn s).ru = s.ru ∧ (soloOn s).mu = s.mu ∧ (soloOn s).rcu = s.rcu ∧ (soloOn s).hc = s.hc
    ∧ (soloOn s).bac = s.bac ∧ (soloOn s).spc = s.spc ∧ (soloOn s).cs = s.cs ∧ (soloOn s).hpu = s.hpu
    ∧ (soloOn s).acu = s.acu ∧ (soloOn s).pending = s.pending
    ∧ (soloOn s).pins = s.pins := by
  simp [soloOn]

@[simp] theorem beginCalibration_frame (s : State) :
    (beginCalibration s).stu = s.stu ∧ (beginCalibration s).ru = s.ru ∧ (beginCalibration s).mu = s.mu
    ∧ (beginCalibration s).rcu = s.rcu ∧ (beginCalibration s).hc = s.hc ∧ (beginCalibration s).bac = s.bac
    ∧ (beginCalibration s).spc.capture = s.spc.capture ∧ (beginCalibration s).spc.ready = s.spc.ready
    ∧ (beginCalibration s).spc.raw = s.spc.raw ∧ (beginCalibration s).spc.table = s.spc.table
    ∧ (beginCalibration s).spc.elapsed = s.spc.elapsed ∧ (beginCalibration s).cs = s.cs
    ∧ (beginCalibration s).hpu = s.hpu ∧ (beginCalibration s).acu = s.acu ∧ (beginCalibration s).pending = s.pending
    ∧ (beginCalibration s).pins = s.pins
    ∧ (beginCalibration s).spc.sdata = s.spc.sdata ∧ (beginCalibration s).spc.clocked = s.spc.clocked
    ∧ (beginCalibration s).spc.clockTime = s.spc.clockTime := by
  simp [beginCalibration]

@[simp] theorem takeCalibrate_frame (s : State) :
    (takeCalibrate s).stu.gate = s.stu.gate ∧ (takeCalibrate s).stu.gateHigh = s.stu.gateHigh
    ∧ (takeCalibrate s).stu.faultSeen = s.stu.faultSeen ∧ (takeCalibrate s).stu.guard = s.stu.guard
    ∧ (takeCalibrate s).stu.take = s.stu.take ∧ (takeCalibrate s).stu.index = s.stu.index
    ∧ (takeCalibrate s).stu.stall = s.stu.stall ∧ (takeCalibrate s).stu.stallFlag = s.stu.stallFlag
    ∧ (takeCalibrate s).stu.time = s.stu.time ∧ (takeCalibrate s).stu.boundaryTime = s.stu.boundaryTime
    ∧ (takeCalibrate s).stu.startSerial = s.stu.startSerial ∧ (takeCalibrate s).ru = s.ru
    ∧ (takeCalibrate s).mu = s.mu ∧ (takeCalibrate s).rcu = s.rcu ∧ (takeCalibrate s).hc = s.hc
    ∧ (takeCalibrate s).bac = s.bac ∧ (takeCalibrate s).spc.capture = s.spc.capture
    ∧ (takeCalibrate s).spc.ready = s.spc.ready ∧ (takeCalibrate s).spc.raw = s.spc.raw
    ∧ (takeCalibrate s).spc.table = s.spc.table ∧ (takeCalibrate s).spc.elapsed = s.spc.elapsed
    ∧ (takeCalibrate s).cs = s.cs ∧ (takeCalibrate s).hpu.transaction = s.hpu.transaction
    ∧ (takeCalibrate s).hpu.events = s.hpu.events ∧ (takeCalibrate s).hpu.mask = s.hpu.mask
    ∧ (takeCalibrate s).hpu.lastCode = s.hpu.lastCode ∧ (takeCalibrate s).hpu.counters = s.hpu.counters
    ∧ (takeCalibrate s).hpu.statSel = s.hpu.statSel ∧ (takeCalibrate s).hpu.statMode = s.hpu.statMode
    ∧ (takeCalibrate s).hpu.memberCopy = s.hpu.memberCopy ∧ (takeCalibrate s).hpu.mergeCopy = s.hpu.mergeCopy
    ∧ (takeCalibrate s).hpu.readWord = s.hpu.readWord ∧ (takeCalibrate s).hpu.resetnLow = s.hpu.resetnLow
    ∧ (takeCalibrate s).acu = s.acu ∧ (takeCalibrate s).pending = s.pending
    ∧ (takeCalibrate s).pins = s.pins
    ∧ (takeCalibrate s).spc.sdata = s.spc.sdata ∧ (takeCalibrate s).spc.clocked = s.spc.clocked
    ∧ (takeCalibrate s).spc.clockTime = s.spc.clockTime := by
  simp only [takeCalibrate]
  (repeat' split) <;> simp

@[simp] theorem calibrateEffect_frame (s : State) :
    (calibrateEffect s).stu.gate = s.stu.gate ∧ (calibrateEffect s).stu.gateHigh = s.stu.gateHigh
    ∧ (calibrateEffect s).stu.faultSeen = s.stu.faultSeen ∧ (calibrateEffect s).stu.guard = s.stu.guard
    ∧ (calibrateEffect s).stu.take = s.stu.take ∧ (calibrateEffect s).stu.index = s.stu.index
    ∧ (calibrateEffect s).stu.stall = s.stu.stall ∧ (calibrateEffect s).stu.stallFlag = s.stu.stallFlag
    ∧ (calibrateEffect s).stu.time = s.stu.time ∧ (calibrateEffect s).stu.boundaryTime = s.stu.boundaryTime
    ∧ (calibrateEffect s).stu.startSerial = s.stu.startSerial ∧ (calibrateEffect s).ru = s.ru
    ∧ (calibrateEffect s).mu = s.mu ∧ (calibrateEffect s).rcu = s.rcu ∧ (calibrateEffect s).hc = s.hc
    ∧ (calibrateEffect s).bac = s.bac ∧ (calibrateEffect s).spc.capture = s.spc.capture
    ∧ (calibrateEffect s).spc.ready = s.spc.ready ∧ (calibrateEffect s).spc.raw = s.spc.raw
    ∧ (calibrateEffect s).spc.table = s.spc.table ∧ (calibrateEffect s).spc.elapsed = s.spc.elapsed
    ∧ (calibrateEffect s).cs = s.cs ∧ (calibrateEffect s).hpu.events = s.hpu.events
    ∧ (calibrateEffect s).hpu.mask = s.hpu.mask ∧ (calibrateEffect s).hpu.counters = s.hpu.counters
    ∧ (calibrateEffect s).hpu.statSel = s.hpu.statSel ∧ (calibrateEffect s).hpu.statMode = s.hpu.statMode
    ∧ (calibrateEffect s).hpu.memberCopy = s.hpu.memberCopy ∧ (calibrateEffect s).hpu.mergeCopy = s.hpu.mergeCopy
    ∧ (calibrateEffect s).hpu.readWord = s.hpu.readWord ∧ (calibrateEffect s).hpu.resetnLow = s.hpu.resetnLow
    ∧ (calibrateEffect s).acu = s.acu ∧ (calibrateEffect s).pending = s.pending
    ∧ (calibrateEffect s).pins = s.pins
    ∧ (calibrateEffect s).spc.sdata = s.spc.sdata ∧ (calibrateEffect s).spc.clocked = s.spc.clocked
    ∧ (calibrateEffect s).spc.clockTime = s.spc.clockTime := by
  simp only [calibrateEffect, hostCommand, onPort]
  (repeat' split) <;> simp

@[simp] theorem takeRelease_frame (s : State) :
    (takeRelease s).stu.gateHigh = s.stu.gateHigh ∧ (takeRelease s).stu.faultSeen = s.stu.faultSeen
    ∧ (takeRelease s).stu.guard = s.stu.guard ∧ (takeRelease s).stu.take = s.stu.take
    ∧ (takeRelease s).stu.index = s.stu.index ∧ (takeRelease s).stu.period = s.stu.period
    ∧ (takeRelease s).stu.formed = s.stu.formed ∧ (takeRelease s).stu.stallFlag = s.stu.stallFlag
    ∧ (takeRelease s).stu.solo = s.stu.solo ∧ (takeRelease s).stu.soloMade = s.stu.soloMade
    ∧ (takeRelease s).stu.time = s.stu.time ∧ (takeRelease s).stu.boundaryTime = s.stu.boundaryTime
    ∧ (takeRelease s).stu.startSerial = s.stu.startSerial ∧ (takeRelease s).ru = s.ru ∧ (takeRelease s).mu = s.mu
    ∧ (takeRelease s).rcu.projFirst = s.rcu.projFirst ∧ (takeRelease s).rcu.projCount = s.rcu.projCount
    ∧ (takeRelease s).hc.freezeReason = s.hc.freezeReason ∧ (takeRelease s).hc.lastSent = s.hc.lastSent
    ∧ (takeRelease s).bac.line = s.bac.line ∧ (takeRelease s).bac.receiver = s.bac.receiver
    ∧ (takeRelease s).bac.inbound = s.bac.inbound ∧ (takeRelease s).bac.rosterItem = s.bac.rosterItem
    ∧ (takeRelease s).bac.scanItems = s.bac.scanItems ∧ (takeRelease s).bac.inTx = s.bac.inTx
    ∧ (takeRelease s).bac.backoff = s.bac.backoff ∧ (takeRelease s).bac.resetPending = s.bac.resetPending
    ∧ (takeRelease s).bac.idleTime = s.bac.idleTime ∧ (takeRelease s).spc = s.spc ∧ (takeRelease s).cs = s.cs
    ∧ (takeRelease s).hpu.transaction = s.hpu.transaction ∧ (takeRelease s).hpu.mask = s.hpu.mask
    ∧ (takeRelease s).hpu.lastCode = s.hpu.lastCode ∧ (takeRelease s).hpu.counters = s.hpu.counters
    ∧ (takeRelease s).hpu.statSel = s.hpu.statSel ∧ (takeRelease s).hpu.statMode = s.hpu.statMode
    ∧ (takeRelease s).hpu.memberCopy = s.hpu.memberCopy ∧ (takeRelease s).hpu.mergeCopy = s.hpu.mergeCopy
    ∧ (takeRelease s).hpu.readWord = s.hpu.readWord ∧ (takeRelease s).hpu.resetnLow = s.hpu.resetnLow
    ∧ (takeRelease s).acu = s.acu ∧ (takeRelease s).pending = s.pending
    ∧ (takeRelease s).pins = s.pins := by
  simp only [takeRelease]
  (repeat' split) <;> simp

@[simp] theorem releaseRecordEffect_frame (s : State) :
    (releaseRecordEffect s).stu.gateHigh = s.stu.gateHigh ∧ (releaseRecordEffect s).stu.faultSeen = s.stu.faultSeen
    ∧ (releaseRecordEffect s).stu.guard = s.stu.guard ∧ (releaseRecordEffect s).stu.take = s.stu.take
    ∧ (releaseRecordEffect s).stu.index = s.stu.index ∧ (releaseRecordEffect s).stu.period = s.stu.period
    ∧ (releaseRecordEffect s).stu.formed = s.stu.formed ∧ (releaseRecordEffect s).stu.stallFlag = s.stu.stallFlag
    ∧ (releaseRecordEffect s).stu.solo = s.stu.solo ∧ (releaseRecordEffect s).stu.soloMade = s.stu.soloMade
    ∧ (releaseRecordEffect s).stu.time = s.stu.time ∧ (releaseRecordEffect s).stu.boundaryTime = s.stu.boundaryTime
    ∧ (releaseRecordEffect s).stu.startSerial = s.stu.startSerial ∧ (releaseRecordEffect s).ru = s.ru
    ∧ (releaseRecordEffect s).mu = s.mu ∧ (releaseRecordEffect s).rcu.projFirst = s.rcu.projFirst
    ∧ (releaseRecordEffect s).rcu.projCount = s.rcu.projCount
    ∧ (releaseRecordEffect s).hc.freezeReason = s.hc.freezeReason
    ∧ (releaseRecordEffect s).hc.lastSent = s.hc.lastSent ∧ (releaseRecordEffect s).bac.line = s.bac.line
    ∧ (releaseRecordEffect s).bac.receiver = s.bac.receiver ∧ (releaseRecordEffect s).bac.inbound = s.bac.inbound
    ∧ (releaseRecordEffect s).bac.rosterItem = s.bac.rosterItem
    ∧ (releaseRecordEffect s).bac.scanItems = s.bac.scanItems ∧ (releaseRecordEffect s).bac.inTx = s.bac.inTx
    ∧ (releaseRecordEffect s).bac.backoff = s.bac.backoff
    ∧ (releaseRecordEffect s).bac.resetPending = s.bac.resetPending
    ∧ (releaseRecordEffect s).bac.idleTime = s.bac.idleTime ∧ (releaseRecordEffect s).spc = s.spc
    ∧ (releaseRecordEffect s).cs = s.cs ∧ (releaseRecordEffect s).hpu.mask = s.hpu.mask
    ∧ (releaseRecordEffect s).hpu.counters = s.hpu.counters ∧ (releaseRecordEffect s).hpu.statSel = s.hpu.statSel
    ∧ (releaseRecordEffect s).hpu.statMode = s.hpu.statMode
    ∧ (releaseRecordEffect s).hpu.memberCopy = s.hpu.memberCopy
    ∧ (releaseRecordEffect s).hpu.mergeCopy = s.hpu.mergeCopy ∧ (releaseRecordEffect s).hpu.readWord = s.hpu.readWord
    ∧ (releaseRecordEffect s).hpu.resetnLow = s.hpu.resetnLow ∧ (releaseRecordEffect s).acu = s.acu
    ∧ (releaseRecordEffect s).pending = s.pending
    ∧ (releaseRecordEffect s).pins = s.pins := by
  simp only [releaseRecordEffect, hostCommand, onPort]
  (repeat' split) <;> simp

@[simp] theorem takeFlush_frame (s : State) :
    (takeFlush s).stu.gateHigh = s.stu.gateHigh ∧ (takeFlush s).stu.faultSeen = s.stu.faultSeen
    ∧ (takeFlush s).stu.guard = s.stu.guard ∧ (takeFlush s).stu.take = s.stu.take
    ∧ (takeFlush s).stu.index = s.stu.index ∧ (takeFlush s).stu.period = s.stu.period
    ∧ (takeFlush s).stu.formed = s.stu.formed ∧ (takeFlush s).stu.stallFlag = s.stu.stallFlag
    ∧ (takeFlush s).stu.solo = s.stu.solo ∧ (takeFlush s).stu.soloMade = s.stu.soloMade
    ∧ (takeFlush s).stu.time = s.stu.time ∧ (takeFlush s).stu.boundaryTime = s.stu.boundaryTime
    ∧ (takeFlush s).stu.startSerial = s.stu.startSerial ∧ (takeFlush s).ru = s.ru ∧ (takeFlush s).mu = s.mu
    ∧ (takeFlush s).rcu.projFirst = s.rcu.projFirst ∧ (takeFlush s).rcu.projCount = s.rcu.projCount
    ∧ (takeFlush s).hc.freezeReason = s.hc.freezeReason ∧ (takeFlush s).hc.lastSent = s.hc.lastSent
    ∧ (takeFlush s).bac.line = s.bac.line ∧ (takeFlush s).bac.receiver = s.bac.receiver
    ∧ (takeFlush s).bac.inbound = s.bac.inbound ∧ (takeFlush s).bac.rosterItem = s.bac.rosterItem
    ∧ (takeFlush s).bac.scanItems = s.bac.scanItems ∧ (takeFlush s).bac.inTx = s.bac.inTx
    ∧ (takeFlush s).bac.backoff = s.bac.backoff ∧ (takeFlush s).bac.resetPending = s.bac.resetPending
    ∧ (takeFlush s).bac.idleTime = s.bac.idleTime ∧ (takeFlush s).spc = s.spc ∧ (takeFlush s).cs = s.cs
    ∧ (takeFlush s).hpu.transaction = s.hpu.transaction ∧ (takeFlush s).hpu.mask = s.hpu.mask
    ∧ (takeFlush s).hpu.lastCode = s.hpu.lastCode ∧ (takeFlush s).hpu.counters = s.hpu.counters
    ∧ (takeFlush s).hpu.statSel = s.hpu.statSel ∧ (takeFlush s).hpu.statMode = s.hpu.statMode
    ∧ (takeFlush s).hpu.memberCopy = s.hpu.memberCopy ∧ (takeFlush s).hpu.mergeCopy = s.hpu.mergeCopy
    ∧ (takeFlush s).hpu.readWord = s.hpu.readWord ∧ (takeFlush s).hpu.resetnLow = s.hpu.resetnLow
    ∧ (takeFlush s).acu = s.acu ∧ (takeFlush s).pending = s.pending
    ∧ (takeFlush s).pins = s.pins := by
  simp [takeFlush]

@[simp] theorem flushRecordsEffect_frame (s : State) :
    (flushRecordsEffect s).stu.gateHigh = s.stu.gateHigh ∧ (flushRecordsEffect s).stu.faultSeen = s.stu.faultSeen
    ∧ (flushRecordsEffect s).stu.guard = s.stu.guard ∧ (flushRecordsEffect s).stu.take = s.stu.take
    ∧ (flushRecordsEffect s).stu.index = s.stu.index ∧ (flushRecordsEffect s).stu.period = s.stu.period
    ∧ (flushRecordsEffect s).stu.formed = s.stu.formed ∧ (flushRecordsEffect s).stu.stallFlag = s.stu.stallFlag
    ∧ (flushRecordsEffect s).stu.solo = s.stu.solo ∧ (flushRecordsEffect s).stu.soloMade = s.stu.soloMade
    ∧ (flushRecordsEffect s).stu.time = s.stu.time ∧ (flushRecordsEffect s).stu.boundaryTime = s.stu.boundaryTime
    ∧ (flushRecordsEffect s).stu.startSerial = s.stu.startSerial ∧ (flushRecordsEffect s).ru = s.ru
    ∧ (flushRecordsEffect s).mu = s.mu ∧ (flushRecordsEffect s).rcu.projFirst = s.rcu.projFirst
    ∧ (flushRecordsEffect s).rcu.projCount = s.rcu.projCount
    ∧ (flushRecordsEffect s).hc.freezeReason = s.hc.freezeReason ∧ (flushRecordsEffect s).hc.lastSent = s.hc.lastSent
    ∧ (flushRecordsEffect s).bac.line = s.bac.line ∧ (flushRecordsEffect s).bac.receiver = s.bac.receiver
    ∧ (flushRecordsEffect s).bac.inbound = s.bac.inbound ∧ (flushRecordsEffect s).bac.rosterItem = s.bac.rosterItem
    ∧ (flushRecordsEffect s).bac.scanItems = s.bac.scanItems ∧ (flushRecordsEffect s).bac.inTx = s.bac.inTx
    ∧ (flushRecordsEffect s).bac.backoff = s.bac.backoff
    ∧ (flushRecordsEffect s).bac.resetPending = s.bac.resetPending
    ∧ (flushRecordsEffect s).bac.idleTime = s.bac.idleTime ∧ (flushRecordsEffect s).spc = s.spc
    ∧ (flushRecordsEffect s).cs = s.cs ∧ (flushRecordsEffect s).hpu.mask = s.hpu.mask
    ∧ (flushRecordsEffect s).hpu.counters = s.hpu.counters ∧ (flushRecordsEffect s).hpu.statSel = s.hpu.statSel
    ∧ (flushRecordsEffect s).hpu.statMode = s.hpu.statMode ∧ (flushRecordsEffect s).hpu.memberCopy = s.hpu.memberCopy
    ∧ (flushRecordsEffect s).hpu.mergeCopy = s.hpu.mergeCopy ∧ (flushRecordsEffect s).hpu.readWord = s.hpu.readWord
    ∧ (flushRecordsEffect s).hpu.resetnLow = s.hpu.resetnLow ∧ (flushRecordsEffect s).acu = s.acu
    ∧ (flushRecordsEffect s).pending = s.pending
    ∧ (flushRecordsEffect s).pins = s.pins := by
  simp only [flushRecordsEffect, hostCommand, onPort]
  (repeat' split) <;> simp

@[simp] theorem recordDataReadEffect_frame (s : State) :
    (recordDataReadEffect s).stu = s.stu ∧ (recordDataReadEffect s).ru = s.ru ∧ (recordDataReadEffect s).mu = s.mu
    ∧ (recordDataReadEffect s).rcu.queue = s.rcu.queue ∧ (recordDataReadEffect s).rcu.projFirst = s.rcu.projFirst
    ∧ (recordDataReadEffect s).rcu.projCount = s.rcu.projCount ∧ (recordDataReadEffect s).rcu.backlog = s.rcu.backlog
    ∧ (recordDataReadEffect s).hc = s.hc ∧ (recordDataReadEffect s).bac = s.bac ∧ (recordDataReadEffect s).spc = s.spc
    ∧ (recordDataReadEffect s).cs = s.cs ∧ (recordDataReadEffect s).hpu.events = s.hpu.events
    ∧ (recordDataReadEffect s).hpu.mask = s.hpu.mask ∧ (recordDataReadEffect s).hpu.result = s.hpu.result
    ∧ (recordDataReadEffect s).hpu.lastCode = s.hpu.lastCode ∧ (recordDataReadEffect s).hpu.counters = s.hpu.counters
    ∧ (recordDataReadEffect s).hpu.statSel = s.hpu.statSel ∧ (recordDataReadEffect s).hpu.statMode = s.hpu.statMode
    ∧ (recordDataReadEffect s).hpu.memberCopy = s.hpu.memberCopy
    ∧ (recordDataReadEffect s).hpu.mergeCopy = s.hpu.mergeCopy
    ∧ (recordDataReadEffect s).hpu.resetnLow = s.hpu.resetnLow ∧ (recordDataReadEffect s).acu = s.acu
    ∧ (recordDataReadEffect s).pending = s.pending
    ∧ (recordDataReadEffect s).pins = s.pins := by
  simp only [recordDataReadEffect, onPort]
  (repeat' split) <;> simp

@[simp] theorem recordPointerWriteEffect_frame (value : Word) (s : State) :
    (recordPointerWriteEffect value s).stu = s.stu ∧ (recordPointerWriteEffect value s).ru = s.ru
    ∧ (recordPointerWriteEffect value s).mu = s.mu ∧ (recordPointerWriteEffect value s).rcu.queue = s.rcu.queue
    ∧ (recordPointerWriteEffect value s).rcu.projFirst = s.rcu.projFirst
    ∧ (recordPointerWriteEffect value s).rcu.projCount = s.rcu.projCount
    ∧ (recordPointerWriteEffect value s).rcu.backlog = s.rcu.backlog ∧ (recordPointerWriteEffect value s).hc = s.hc
    ∧ (recordPointerWriteEffect value s).bac = s.bac ∧ (recordPointerWriteEffect value s).spc = s.spc
    ∧ (recordPointerWriteEffect value s).cs = s.cs ∧ (recordPointerWriteEffect value s).hpu.events = s.hpu.events
    ∧ (recordPointerWriteEffect value s).hpu.mask = s.hpu.mask
    ∧ (recordPointerWriteEffect value s).hpu.result = s.hpu.result
    ∧ (recordPointerWriteEffect value s).hpu.lastCode = s.hpu.lastCode
    ∧ (recordPointerWriteEffect value s).hpu.counters = s.hpu.counters
    ∧ (recordPointerWriteEffect value s).hpu.statSel = s.hpu.statSel
    ∧ (recordPointerWriteEffect value s).hpu.statMode = s.hpu.statMode
    ∧ (recordPointerWriteEffect value s).hpu.memberCopy = s.hpu.memberCopy
    ∧ (recordPointerWriteEffect value s).hpu.mergeCopy = s.hpu.mergeCopy
    ∧ (recordPointerWriteEffect value s).hpu.readWord = s.hpu.readWord
    ∧ (recordPointerWriteEffect value s).hpu.resetnLow = s.hpu.resetnLow
    ∧ (recordPointerWriteEffect value s).acu = s.acu ∧ (recordPointerWriteEffect value s).pending = s.pending
    ∧ (recordPointerWriteEffect value s).pins = s.pins := by
  simp only [recordPointerWriteEffect, onPort]
  (repeat' split) <;> simp

@[simp] theorem projDescWriteEffect_frame (value : Word) (s : State) :
    (projDescWriteEffect value s).stu = s.stu ∧ (projDescWriteEffect value s).ru = s.ru
    ∧ (projDescWriteEffect value s).mu = s.mu ∧ (projDescWriteEffect value s).rcu.queue = s.rcu.queue
    ∧ (projDescWriteEffect value s).rcu.pointer = s.rcu.pointer
    ∧ (projDescWriteEffect value s).rcu.backlog = s.rcu.backlog ∧ (projDescWriteEffect value s).hc = s.hc
    ∧ (projDescWriteEffect value s).bac = s.bac ∧ (projDescWriteEffect value s).spc = s.spc
    ∧ (projDescWriteEffect value s).cs = s.cs ∧ (projDescWriteEffect value s).hpu.events = s.hpu.events
    ∧ (projDescWriteEffect value s).hpu.mask = s.hpu.mask ∧ (projDescWriteEffect value s).hpu.result = s.hpu.result
    ∧ (projDescWriteEffect value s).hpu.lastCode = s.hpu.lastCode
    ∧ (projDescWriteEffect value s).hpu.counters = s.hpu.counters
    ∧ (projDescWriteEffect value s).hpu.statSel = s.hpu.statSel
    ∧ (projDescWriteEffect value s).hpu.statMode = s.hpu.statMode
    ∧ (projDescWriteEffect value s).hpu.memberCopy = s.hpu.memberCopy
    ∧ (projDescWriteEffect value s).hpu.mergeCopy = s.hpu.mergeCopy
    ∧ (projDescWriteEffect value s).hpu.readWord = s.hpu.readWord
    ∧ (projDescWriteEffect value s).hpu.resetnLow = s.hpu.resetnLow ∧ (projDescWriteEffect value s).acu = s.acu
    ∧ (projDescWriteEffect value s).pending = s.pending
    ∧ (projDescWriteEffect value s).pins = s.pins := by
  simp only [projDescWriteEffect, onPort]
  (repeat' split) <;> simp

@[simp] theorem refuseCommit_frame (e : ErrorCode) (s : State) :
    (refuseCommit e s).stu = s.stu ∧ (refuseCommit e s).ru = s.ru ∧ (refuseCommit e s).mu = s.mu
    ∧ (refuseCommit e s).rcu = s.rcu ∧ (refuseCommit e s).hc = s.hc ∧ (refuseCommit e s).bac = s.bac
    ∧ (refuseCommit e s).spc = s.spc ∧ (refuseCommit e s).cs.written = s.cs.written
    ∧ (refuseCommit e s).cs.committed = s.cs.committed ∧ (refuseCommit e s).cs.digest = s.cs.digest
    ∧ (refuseCommit e s).cs.load = s.cs.load ∧ (refuseCommit e s).cs.selector = s.cs.selector
    ∧ (refuseCommit e s).cs.cfgsrc = s.cs.cfgsrc
    ∧ (refuseCommit e s).cs.eeprom = s.cs.eeprom ∧ (refuseCommit e s).hpu.transaction = s.hpu.transaction
    ∧ (refuseCommit e s).hpu.events = s.hpu.events ∧ (refuseCommit e s).hpu.mask = s.hpu.mask
    ∧ (refuseCommit e s).hpu.lastCode = s.hpu.lastCode ∧ (refuseCommit e s).hpu.counters = s.hpu.counters
    ∧ (refuseCommit e s).hpu.statSel = s.hpu.statSel ∧ (refuseCommit e s).hpu.statMode = s.hpu.statMode
    ∧ (refuseCommit e s).hpu.memberCopy = s.hpu.memberCopy ∧ (refuseCommit e s).hpu.mergeCopy = s.hpu.mergeCopy
    ∧ (refuseCommit e s).hpu.readWord = s.hpu.readWord ∧ (refuseCommit e s).hpu.resetnLow = s.hpu.resetnLow
    ∧ (refuseCommit e s).acu = s.acu ∧ (refuseCommit e s).pending = s.pending
    ∧ (refuseCommit e s).pins = s.pins := by
  simp [refuseCommit]

@[simp] theorem takeCommit_frame (s : State) :
    (takeCommit s).stu.gateHigh = s.stu.gateHigh ∧ (takeCommit s).stu.faultSeen = s.stu.faultSeen
    ∧ (takeCommit s).stu.guard = s.stu.guard ∧ (takeCommit s).stu.take = s.stu.take
    ∧ (takeCommit s).stu.index = s.stu.index ∧ (takeCommit s).stu.formed = s.stu.formed
    ∧ (takeCommit s).stu.stallFlag = s.stu.stallFlag ∧ (takeCommit s).stu.soloMade = s.stu.soloMade
    ∧ (takeCommit s).stu.time = s.stu.time ∧ (takeCommit s).stu.boundaryTime = s.stu.boundaryTime
    ∧ (takeCommit s).stu.startSerial = s.stu.startSerial ∧ (takeCommit s).ru = s.ru ∧ (takeCommit s).mu = s.mu
    ∧ (takeCommit s).rcu = s.rcu ∧ (takeCommit s).hc.backlogReason = s.hc.backlogReason
    ∧ (takeCommit s).hc.freezeReason = s.hc.freezeReason ∧ (takeCommit s).hc.lastSent = s.hc.lastSent
    ∧ (takeCommit s).bac.inbound = s.bac.inbound ∧ (takeCommit s).bac.rosterItem = s.bac.rosterItem
    ∧ (takeCommit s).bac.scanItems = s.bac.scanItems ∧ (takeCommit s).bac.inTx = s.bac.inTx
    ∧ (takeCommit s).bac.backoff = s.bac.backoff ∧ (takeCommit s).bac.resetPending = s.bac.resetPending
    ∧ (takeCommit s).spc = s.spc ∧ (takeCommit s).cs.written = s.cs.written
    ∧ (takeCommit s).cs.selector = s.cs.selector ∧ (takeCommit s).cs.cfgsrc = s.cs.cfgsrc
    ∧ (takeCommit s).cs.eeprom = s.cs.eeprom
    ∧ (takeCommit s).hpu.transaction = s.hpu.transaction ∧ (takeCommit s).hpu.events = s.hpu.events
    ∧ (takeCommit s).hpu.mask = s.hpu.mask ∧ (takeCommit s).hpu.lastCode = s.hpu.lastCode
    ∧ (takeCommit s).hpu.counters = s.hpu.counters ∧ (takeCommit s).hpu.statSel = s.hpu.statSel
    ∧ (takeCommit s).hpu.statMode = s.hpu.statMode ∧ (takeCommit s).hpu.memberCopy = s.hpu.memberCopy
    ∧ (takeCommit s).hpu.mergeCopy = s.hpu.mergeCopy ∧ (takeCommit s).hpu.readWord = s.hpu.readWord
    ∧ (takeCommit s).hpu.resetnLow = s.hpu.resetnLow ∧ (takeCommit s).acu.joinScan = s.acu.joinScan
    ∧ (takeCommit s).acu.leaveScan = s.acu.leaveScan ∧ (takeCommit s).acu.refusalPending = s.acu.refusalPending
    ∧ (takeCommit s).acu.drain = s.acu.drain ∧ (takeCommit s).pending = s.pending
    ∧ (takeCommit s).pins = s.pins := by
  simp only [takeCommit]
  (repeat' split) <;> simp

@[simp] theorem commitConfigEffect_frame (s : State) :
    (commitConfigEffect s).stu.gateHigh = s.stu.gateHigh ∧ (commitConfigEffect s).stu.faultSeen = s.stu.faultSeen
    ∧ (commitConfigEffect s).stu.guard = s.stu.guard ∧ (commitConfigEffect s).stu.take = s.stu.take
    ∧ (commitConfigEffect s).stu.index = s.stu.index ∧ (commitConfigEffect s).stu.formed = s.stu.formed
    ∧ (commitConfigEffect s).stu.stallFlag = s.stu.stallFlag ∧ (commitConfigEffect s).stu.soloMade = s.stu.soloMade
    ∧ (commitConfigEffect s).stu.time = s.stu.time ∧ (commitConfigEffect s).stu.boundaryTime = s.stu.boundaryTime
    ∧ (commitConfigEffect s).stu.startSerial = s.stu.startSerial ∧ (commitConfigEffect s).ru = s.ru
    ∧ (commitConfigEffect s).mu = s.mu ∧ (commitConfigEffect s).rcu = s.rcu
    ∧ (commitConfigEffect s).hc.backlogReason = s.hc.backlogReason
    ∧ (commitConfigEffect s).hc.freezeReason = s.hc.freezeReason ∧ (commitConfigEffect s).hc.lastSent = s.hc.lastSent
    ∧ (commitConfigEffect s).bac.inbound = s.bac.inbound ∧ (commitConfigEffect s).bac.rosterItem = s.bac.rosterItem
    ∧ (commitConfigEffect s).bac.scanItems = s.bac.scanItems ∧ (commitConfigEffect s).bac.inTx = s.bac.inTx
    ∧ (commitConfigEffect s).bac.backoff = s.bac.backoff
    ∧ (commitConfigEffect s).bac.resetPending = s.bac.resetPending ∧ (commitConfigEffect s).spc = s.spc
    ∧ (commitConfigEffect s).cs.written = s.cs.written ∧ (commitConfigEffect s).cs.selector = s.cs.selector
    ∧ (commitConfigEffect s).cs.cfgsrc = s.cs.cfgsrc
    ∧ (commitConfigEffect s).cs.eeprom = s.cs.eeprom ∧ (commitConfigEffect s).hpu.events = s.hpu.events
    ∧ (commitConfigEffect s).hpu.mask = s.hpu.mask ∧ (commitConfigEffect s).hpu.counters = s.hpu.counters
    ∧ (commitConfigEffect s).hpu.statSel = s.hpu.statSel ∧ (commitConfigEffect s).hpu.statMode = s.hpu.statMode
    ∧ (commitConfigEffect s).hpu.memberCopy = s.hpu.memberCopy
    ∧ (commitConfigEffect s).hpu.mergeCopy = s.hpu.mergeCopy ∧ (commitConfigEffect s).hpu.readWord = s.hpu.readWord
    ∧ (commitConfigEffect s).hpu.resetnLow = s.hpu.resetnLow ∧ (commitConfigEffect s).acu.joinScan = s.acu.joinScan
    ∧ (commitConfigEffect s).acu.leaveScan = s.acu.leaveScan
    ∧ (commitConfigEffect s).acu.refusalPending = s.acu.refusalPending
    ∧ (commitConfigEffect s).acu.drain = s.acu.drain ∧ (commitConfigEffect s).pending = s.pending
    ∧ (commitConfigEffect s).pins = s.pins := by
  simp only [commitConfigEffect, hostCommand, onPort]
  (repeat' split) <;> simp

@[simp] theorem loadFailed_frame (e : ErrorCode) (s : State) :
    (loadFailed e s).stu = s.stu ∧ (loadFailed e s).ru = s.ru ∧ (loadFailed e s).mu = s.mu
    ∧ (loadFailed e s).rcu = s.rcu ∧ (loadFailed e s).hc = s.hc ∧ (loadFailed e s).bac = s.bac
    ∧ (loadFailed e s).spc = s.spc ∧ (loadFailed e s).cs.committed = s.cs.committed
    ∧ (loadFailed e s).cs.digest = s.cs.digest ∧ (loadFailed e s).cs.selector = s.cs.selector
    ∧ (loadFailed e s).cs.cfgsrc = s.cs.cfgsrc
    ∧ (loadFailed e s).cs.eeprom = s.cs.eeprom ∧ (loadFailed e s).hpu.transaction = s.hpu.transaction
    ∧ (loadFailed e s).hpu.mask = s.hpu.mask ∧ (loadFailed e s).hpu.result = s.hpu.result
    ∧ (loadFailed e s).hpu.lastCode = s.hpu.lastCode ∧ (loadFailed e s).hpu.counters = s.hpu.counters
    ∧ (loadFailed e s).hpu.statSel = s.hpu.statSel ∧ (loadFailed e s).hpu.statMode = s.hpu.statMode
    ∧ (loadFailed e s).hpu.memberCopy = s.hpu.memberCopy ∧ (loadFailed e s).hpu.mergeCopy = s.hpu.mergeCopy
    ∧ (loadFailed e s).hpu.readWord = s.hpu.readWord ∧ (loadFailed e s).hpu.resetnLow = s.hpu.resetnLow
    ∧ (loadFailed e s).acu.joinScan = s.acu.joinScan ∧ (loadFailed e s).acu.leaveScan = s.acu.leaveScan
    ∧ (loadFailed e s).acu.listen = s.acu.listen ∧ (loadFailed e s).acu.admission = s.acu.admission
    ∧ (loadFailed e s).acu.matchingSeen = s.acu.matchingSeen
    ∧ (loadFailed e s).acu.mismatchingSeen = s.acu.mismatchingSeen
    ∧ (loadFailed e s).acu.refusalPending = s.acu.refusalPending ∧ (loadFailed e s).acu.drain = s.acu.drain
    ∧ (loadFailed e s).acu.reason = s.acu.reason ∧ (loadFailed e s).pending = s.pending
    ∧ (loadFailed e s).pins = s.pins := by
  simp [loadFailed]

@[simp] theorem loadCommitted_frame (s : State) :
    (loadCommitted s).stu.gateHigh = s.stu.gateHigh ∧ (loadCommitted s).stu.faultSeen = s.stu.faultSeen
    ∧ (loadCommitted s).stu.guard = s.stu.guard ∧ (loadCommitted s).stu.take = s.stu.take
    ∧ (loadCommitted s).stu.index = s.stu.index ∧ (loadCommitted s).stu.formed = s.stu.formed
    ∧ (loadCommitted s).stu.stallFlag = s.stu.stallFlag ∧ (loadCommitted s).stu.soloMade = s.stu.soloMade
    ∧ (loadCommitted s).stu.time = s.stu.time ∧ (loadCommitted s).stu.boundaryTime = s.stu.boundaryTime
    ∧ (loadCommitted s).stu.startSerial = s.stu.startSerial ∧ (loadCommitted s).ru = s.ru
    ∧ (loadCommitted s).mu = s.mu ∧ (loadCommitted s).rcu = s.rcu
    ∧ (loadCommitted s).hc.backlogReason = s.hc.backlogReason ∧ (loadCommitted s).hc.freezeReason = s.hc.freezeReason
    ∧ (loadCommitted s).hc.lastSent = s.hc.lastSent ∧ (loadCommitted s).bac.inbound = s.bac.inbound
    ∧ (loadCommitted s).bac.rosterItem = s.bac.rosterItem ∧ (loadCommitted s).bac.scanItems = s.bac.scanItems
    ∧ (loadCommitted s).bac.inTx = s.bac.inTx ∧ (loadCommitted s).bac.backoff = s.bac.backoff
    ∧ (loadCommitted s).bac.resetPending = s.bac.resetPending ∧ (loadCommitted s).spc = s.spc
    ∧ (loadCommitted s).cs.written = s.cs.written ∧ (loadCommitted s).cs.selector = s.cs.selector
    ∧ (loadCommitted s).cs.cfgsrc = s.cs.cfgsrc
    ∧ (loadCommitted s).cs.eeprom = s.cs.eeprom ∧ (loadCommitted s).hpu.transaction = s.hpu.transaction
    ∧ (loadCommitted s).hpu.mask = s.hpu.mask ∧ (loadCommitted s).hpu.result = s.hpu.result
    ∧ (loadCommitted s).hpu.lastCode = s.hpu.lastCode ∧ (loadCommitted s).hpu.counters = s.hpu.counters
    ∧ (loadCommitted s).hpu.statSel = s.hpu.statSel ∧ (loadCommitted s).hpu.statMode = s.hpu.statMode
    ∧ (loadCommitted s).hpu.memberCopy = s.hpu.memberCopy ∧ (loadCommitted s).hpu.mergeCopy = s.hpu.mergeCopy
    ∧ (loadCommitted s).hpu.readWord = s.hpu.readWord ∧ (loadCommitted s).hpu.resetnLow = s.hpu.resetnLow
    ∧ (loadCommitted s).acu.joinScan = s.acu.joinScan ∧ (loadCommitted s).acu.leaveScan = s.acu.leaveScan
    ∧ (loadCommitted s).acu.refusalPending = s.acu.refusalPending ∧ (loadCommitted s).acu.drain = s.acu.drain
    ∧ (loadCommitted s).pending = s.pending
    ∧ (loadCommitted s).pins = s.pins := by
  simp [loadCommitted]

@[simp] theorem takeImage_frame (image : List Byte) (s : State) :
    (takeImage image s).stu.gateHigh = s.stu.gateHigh ∧ (takeImage image s).stu.faultSeen = s.stu.faultSeen
    ∧ (takeImage image s).stu.guard = s.stu.guard ∧ (takeImage image s).stu.take = s.stu.take
    ∧ (takeImage image s).stu.index = s.stu.index ∧ (takeImage image s).stu.formed = s.stu.formed
    ∧ (takeImage image s).stu.stallFlag = s.stu.stallFlag ∧ (takeImage image s).stu.soloMade = s.stu.soloMade
    ∧ (takeImage image s).stu.time = s.stu.time ∧ (takeImage image s).stu.boundaryTime = s.stu.boundaryTime
    ∧ (takeImage image s).stu.startSerial = s.stu.startSerial ∧ (takeImage image s).ru = s.ru
    ∧ (takeImage image s).mu = s.mu ∧ (takeImage image s).rcu = s.rcu
    ∧ (takeImage image s).hc.backlogReason = s.hc.backlogReason
    ∧ (takeImage image s).hc.freezeReason = s.hc.freezeReason ∧ (takeImage image s).hc.lastSent = s.hc.lastSent
    ∧ (takeImage image s).bac.inbound = s.bac.inbound ∧ (takeImage image s).bac.rosterItem = s.bac.rosterItem
    ∧ (takeImage image s).bac.scanItems = s.bac.scanItems ∧ (takeImage image s).bac.inTx = s.bac.inTx
    ∧ (takeImage image s).bac.backoff = s.bac.backoff ∧ (takeImage image s).bac.resetPending = s.bac.resetPending
    ∧ (takeImage image s).spc = s.spc ∧ (takeImage image s).cs.selector = s.cs.selector
    ∧ (takeImage image s).cs.cfgsrc = s.cs.cfgsrc
    ∧ (takeImage image s).cs.eeprom = s.cs.eeprom ∧ (takeImage image s).hpu.transaction = s.hpu.transaction
    ∧ (takeImage image s).hpu.mask = s.hpu.mask ∧ (takeImage image s).hpu.result = s.hpu.result
    ∧ (takeImage image s).hpu.lastCode = s.hpu.lastCode ∧ (takeImage image s).hpu.counters = s.hpu.counters
    ∧ (takeImage image s).hpu.statSel = s.hpu.statSel ∧ (takeImage image s).hpu.statMode = s.hpu.statMode
    ∧ (takeImage image s).hpu.memberCopy = s.hpu.memberCopy ∧ (takeImage image s).hpu.mergeCopy = s.hpu.mergeCopy
    ∧ (takeImage image s).hpu.readWord = s.hpu.readWord ∧ (takeImage image s).hpu.resetnLow = s.hpu.resetnLow
    ∧ (takeImage image s).acu.joinScan = s.acu.joinScan ∧ (takeImage image s).acu.leaveScan = s.acu.leaveScan
    ∧ (takeImage image s).acu.refusalPending = s.acu.refusalPending ∧ (takeImage image s).acu.drain = s.acu.drain
    ∧ (takeImage image s).pending = s.pending
    ∧ (takeImage image s).pins = s.pins := by
  simp only [takeImage]
  (repeat' split) <;> simp

@[simp] theorem setEdi_frame (high : Bool) (s : State) :
    (setEdi high s).stu = s.stu ∧ (setEdi high s).ru = s.ru ∧ (setEdi high s).mu = s.mu ∧ (setEdi high s).rcu = s.rcu
    ∧ (setEdi high s).hc = s.hc ∧ (setEdi high s).bac = s.bac ∧ (setEdi high s).spc = s.spc
    ∧ (setEdi high s).cs.written = s.cs.written ∧ (setEdi high s).cs.committed = s.cs.committed
    ∧ (setEdi high s).cs.digest = s.cs.digest ∧ (setEdi high s).cs.load = s.cs.load
    ∧ (setEdi high s).cs.error = s.cs.error ∧ (setEdi high s).cs.selector = s.cs.selector
    ∧ (setEdi high s).cs.cfgsrc = s.cs.cfgsrc ∧ (setEdi high s).cs.eeprom.eckHigh = s.cs.eeprom.eckHigh
    ∧ (setEdi high s).cs.eeprom.eckCycles = s.cs.eeprom.eckCycles ∧ (setEdi high s).cs.eeprom.bits = s.cs.eeprom.bits
    ∧ (setEdi high s).hpu = s.hpu ∧ (setEdi high s).acu = s.acu ∧ (setEdi high s).pending = s.pending
    ∧ (setEdi high s).pins = s.pins := by
  simp [setEdi]

@[simp] theorem Cs.eckEdge_frame (c : Cs) :
    c.eckEdge.written = c.written ∧ c.eckEdge.committed = c.committed ∧ c.eckEdge.digest = c.digest
    ∧ c.eckEdge.load = c.load ∧ c.eckEdge.error = c.error ∧ c.eckEdge.selector = c.selector
    ∧ c.eckEdge.cfgsrc = c.cfgsrc := by
  simp only [Cs.eckEdge]
  split <;> simp

@[simp] theorem Cs.tick_frame (c : Cs) :
    c.tick.written = c.written ∧ c.tick.committed = c.committed ∧ c.tick.digest = c.digest ∧ c.tick.load = c.load
    ∧ c.tick.error = c.error ∧ c.tick.selector = c.selector ∧ c.tick.cfgsrc = c.cfgsrc := by
  simp [Cs.tick]

@[simp] theorem eckMoves_frame (s : State) :
    (eckMoves s).stu = s.stu ∧ (eckMoves s).ru = s.ru ∧ (eckMoves s).mu = s.mu ∧ (eckMoves s).rcu = s.rcu
    ∧ (eckMoves s).hc = s.hc ∧ (eckMoves s).bac = s.bac ∧ (eckMoves s).spc = s.spc
    ∧ (eckMoves s).cs.written = s.cs.written ∧ (eckMoves s).cs.committed = s.cs.committed
    ∧ (eckMoves s).cs.digest = s.cs.digest ∧ (eckMoves s).cs.load = s.cs.load ∧ (eckMoves s).cs.error = s.cs.error
    ∧ (eckMoves s).cs.selector = s.cs.selector ∧ (eckMoves s).cs.cfgsrc = s.cs.cfgsrc ∧ (eckMoves s).hpu = s.hpu
    ∧ (eckMoves s).acu = s.acu ∧ (eckMoves s).pending = s.pending ∧ (eckMoves s).pins = s.pins := by
  simp [eckMoves]

@[simp] theorem imageReadEndEffect_frame (edi : Bool) (s : State) :
    (imageReadEndEffect edi s).stu.gateHigh = s.stu.gateHigh
    ∧ (imageReadEndEffect edi s).stu.faultSeen = s.stu.faultSeen
    ∧ (imageReadEndEffect edi s).stu.guard = s.stu.guard ∧ (imageReadEndEffect edi s).stu.take = s.stu.take
    ∧ (imageReadEndEffect edi s).stu.index = s.stu.index ∧ (imageReadEndEffect edi s).stu.formed = s.stu.formed
    ∧ (imageReadEndEffect edi s).stu.stallFlag = s.stu.stallFlag
    ∧ (imageReadEndEffect edi s).stu.soloMade = s.stu.soloMade ∧ (imageReadEndEffect edi s).stu.time = s.stu.time
    ∧ (imageReadEndEffect edi s).stu.boundaryTime = s.stu.boundaryTime
    ∧ (imageReadEndEffect edi s).stu.startSerial = s.stu.startSerial ∧ (imageReadEndEffect edi s).ru = s.ru
    ∧ (imageReadEndEffect edi s).mu = s.mu ∧ (imageReadEndEffect edi s).rcu = s.rcu
    ∧ (imageReadEndEffect edi s).hc.backlogReason = s.hc.backlogReason
    ∧ (imageReadEndEffect edi s).hc.freezeReason = s.hc.freezeReason
    ∧ (imageReadEndEffect edi s).hc.lastSent = s.hc.lastSent
    ∧ (imageReadEndEffect edi s).bac.inbound = s.bac.inbound
    ∧ (imageReadEndEffect edi s).bac.rosterItem = s.bac.rosterItem
    ∧ (imageReadEndEffect edi s).bac.scanItems = s.bac.scanItems
    ∧ (imageReadEndEffect edi s).bac.inTx = s.bac.inTx ∧ (imageReadEndEffect edi s).bac.backoff = s.bac.backoff
    ∧ (imageReadEndEffect edi s).bac.resetPending = s.bac.resetPending ∧ (imageReadEndEffect edi s).spc = s.spc
    ∧ (imageReadEndEffect edi s).cs.selector = s.cs.selector ∧ (imageReadEndEffect edi s).cs.cfgsrc = s.cs.cfgsrc
    ∧ (imageReadEndEffect edi s).cs.eeprom.eckHigh = s.cs.eeprom.eckHigh
    ∧ (imageReadEndEffect edi s).cs.eeprom.eckCycles = s.cs.eeprom.eckCycles
    ∧ (imageReadEndEffect edi s).cs.eeprom.bits = s.cs.eeprom.bits
    ∧ (imageReadEndEffect edi s).hpu.transaction = s.hpu.transaction
    ∧ (imageReadEndEffect edi s).hpu.mask = s.hpu.mask ∧ (imageReadEndEffect edi s).hpu.result = s.hpu.result
    ∧ (imageReadEndEffect edi s).hpu.lastCode = s.hpu.lastCode
    ∧ (imageReadEndEffect edi s).hpu.counters = s.hpu.counters
    ∧ (imageReadEndEffect edi s).hpu.statSel = s.hpu.statSel
    ∧ (imageReadEndEffect edi s).hpu.statMode = s.hpu.statMode
    ∧ (imageReadEndEffect edi s).hpu.memberCopy = s.hpu.memberCopy
    ∧ (imageReadEndEffect edi s).hpu.mergeCopy = s.hpu.mergeCopy
    ∧ (imageReadEndEffect edi s).hpu.readWord = s.hpu.readWord
    ∧ (imageReadEndEffect edi s).hpu.resetnLow = s.hpu.resetnLow
    ∧ (imageReadEndEffect edi s).acu.joinScan = s.acu.joinScan
    ∧ (imageReadEndEffect edi s).acu.leaveScan = s.acu.leaveScan
    ∧ (imageReadEndEffect edi s).acu.refusalPending = s.acu.refusalPending
    ∧ (imageReadEndEffect edi s).acu.drain = s.acu.drain ∧ (imageReadEndEffect edi s).pending = s.pending
    ∧ (imageReadEndEffect edi s).pins = s.pins := by
  simp only [imageReadEndEffect]
  split <;> simp

theorem writeSelector_in_address {s : State} {selector : BitVec 5} {bits : List Bool}
    (h : s.hpu.transaction = .address selector bits) : s.writeSelector = selector := by simp [State.writeSelector, h]

theorem writeSelector_in_write {s : State} {selector : BitVec 5} {address : BitVec 7} {bits : List Bool}
    (h : s.hpu.transaction = .write selector address bits) : s.writeSelector = selector := by simp [State.writeSelector, h]

theorem writeSelector_outside {s : State} (ha : ∀ selector bits, s.hpu.transaction ≠ .address selector bits)
    (hw : ∀ selector address bits, s.hpu.transaction ≠ .write selector address bits) :
    s.writeSelector = s.cs.selector := by
  unfold State.writeSelector
  split
  · exact absurd ‹_› (ha _ _)
  · exact absurd ‹_› (hw _ _ _)
  all_goals rfl

@[simp] theorem takeParamValue_frame (value : Word) (s : State) :
    (takeParamValue value s).stu = s.stu ∧ (takeParamValue value s).ru = s.ru ∧ (takeParamValue value s).mu = s.mu
    ∧ (takeParamValue value s).rcu = s.rcu ∧ (takeParamValue value s).hc = s.hc ∧ (takeParamValue value s).bac = s.bac
    ∧ (takeParamValue value s).spc = s.spc ∧ (takeParamValue value s).cs.committed = s.cs.committed
    ∧ (takeParamValue value s).cs.digest = s.cs.digest ∧ (takeParamValue value s).cs.load = s.cs.load
    ∧ (takeParamValue value s).cs.error = s.cs.error ∧ (takeParamValue value s).cs.selector = s.cs.selector
    ∧ (takeParamValue value s).cs.cfgsrc = s.cs.cfgsrc
    ∧ (takeParamValue value s).cs.eeprom = s.cs.eeprom ∧ (takeParamValue value s).hpu.transaction = s.hpu.transaction
    ∧ (takeParamValue value s).hpu.events = s.hpu.events ∧ (takeParamValue value s).hpu.mask = s.hpu.mask
    ∧ (takeParamValue value s).hpu.lastCode = s.hpu.lastCode ∧ (takeParamValue value s).hpu.counters = s.hpu.counters
    ∧ (takeParamValue value s).hpu.statSel = s.hpu.statSel ∧ (takeParamValue value s).hpu.statMode = s.hpu.statMode
    ∧ (takeParamValue value s).hpu.memberCopy = s.hpu.memberCopy
    ∧ (takeParamValue value s).hpu.mergeCopy = s.hpu.mergeCopy
    ∧ (takeParamValue value s).hpu.readWord = s.hpu.readWord
    ∧ (takeParamValue value s).hpu.resetnLow = s.hpu.resetnLow ∧ (takeParamValue value s).acu = s.acu
    ∧ (takeParamValue value s).pending = s.pending
    ∧ (takeParamValue value s).pins = s.pins := by
  simp only [takeParamValue]
  (repeat' split) <;> simp

@[simp] theorem paramValueWriteEffect_frame (value : Word) (s : State) :
    (paramValueWriteEffect value s).stu = s.stu ∧ (paramValueWriteEffect value s).ru = s.ru
    ∧ (paramValueWriteEffect value s).mu = s.mu ∧ (paramValueWriteEffect value s).rcu = s.rcu
    ∧ (paramValueWriteEffect value s).hc = s.hc ∧ (paramValueWriteEffect value s).bac = s.bac
    ∧ (paramValueWriteEffect value s).spc = s.spc ∧ (paramValueWriteEffect value s).cs.committed = s.cs.committed
    ∧ (paramValueWriteEffect value s).cs.digest = s.cs.digest ∧ (paramValueWriteEffect value s).cs.load = s.cs.load
    ∧ (paramValueWriteEffect value s).cs.error = s.cs.error
    ∧ (paramValueWriteEffect value s).cs.selector = s.cs.selector
    ∧ (paramValueWriteEffect value s).cs.cfgsrc = s.cs.cfgsrc
    ∧ (paramValueWriteEffect value s).cs.eeprom = s.cs.eeprom
    ∧ (paramValueWriteEffect value s).hpu.events = s.hpu.events
    ∧ (paramValueWriteEffect value s).hpu.mask = s.hpu.mask
    ∧ (paramValueWriteEffect value s).hpu.lastCode = s.hpu.lastCode
    ∧ (paramValueWriteEffect value s).hpu.counters = s.hpu.counters
    ∧ (paramValueWriteEffect value s).hpu.statSel = s.hpu.statSel
    ∧ (paramValueWriteEffect value s).hpu.statMode = s.hpu.statMode
    ∧ (paramValueWriteEffect value s).hpu.memberCopy = s.hpu.memberCopy
    ∧ (paramValueWriteEffect value s).hpu.mergeCopy = s.hpu.mergeCopy
    ∧ (paramValueWriteEffect value s).hpu.readWord = s.hpu.readWord
    ∧ (paramValueWriteEffect value s).hpu.resetnLow = s.hpu.resetnLow ∧ (paramValueWriteEffect value s).acu = s.acu
    ∧ (paramValueWriteEffect value s).pending = s.pending
    ∧ (paramValueWriteEffect value s).pins = s.pins := by
  simp only [paramValueWriteEffect, onPort]
  (repeat' split) <;> simp

@[simp] theorem eventsWriteEffect_frame (value : Word) (s : State) :
    (eventsWriteEffect value s).stu = s.stu ∧ (eventsWriteEffect value s).ru = s.ru
    ∧ (eventsWriteEffect value s).mu = s.mu ∧ (eventsWriteEffect value s).rcu = s.rcu
    ∧ (eventsWriteEffect value s).hc = s.hc ∧ (eventsWriteEffect value s).bac = s.bac
    ∧ (eventsWriteEffect value s).spc = s.spc ∧ (eventsWriteEffect value s).cs = s.cs
    ∧ (eventsWriteEffect value s).hpu.mask = s.hpu.mask ∧ (eventsWriteEffect value s).hpu.result = s.hpu.result
    ∧ (eventsWriteEffect value s).hpu.lastCode = s.hpu.lastCode
    ∧ (eventsWriteEffect value s).hpu.counters = s.hpu.counters
    ∧ (eventsWriteEffect value s).hpu.statSel = s.hpu.statSel
    ∧ (eventsWriteEffect value s).hpu.statMode = s.hpu.statMode
    ∧ (eventsWriteEffect value s).hpu.memberCopy = s.hpu.memberCopy
    ∧ (eventsWriteEffect value s).hpu.mergeCopy = s.hpu.mergeCopy
    ∧ (eventsWriteEffect value s).hpu.readWord = s.hpu.readWord
    ∧ (eventsWriteEffect value s).hpu.resetnLow = s.hpu.resetnLow ∧ (eventsWriteEffect value s).acu = s.acu
    ∧ (eventsWriteEffect value s).pending = s.pending
    ∧ (eventsWriteEffect value s).pins = s.pins := by
  simp only [eventsWriteEffect, onPort]
  (repeat' split) <;> simp

@[simp] theorem eventMaskWriteEffect_frame (value : Word) (s : State) :
    (eventMaskWriteEffect value s).stu = s.stu ∧ (eventMaskWriteEffect value s).ru = s.ru
    ∧ (eventMaskWriteEffect value s).mu = s.mu ∧ (eventMaskWriteEffect value s).rcu = s.rcu
    ∧ (eventMaskWriteEffect value s).hc = s.hc ∧ (eventMaskWriteEffect value s).bac = s.bac
    ∧ (eventMaskWriteEffect value s).spc = s.spc ∧ (eventMaskWriteEffect value s).cs = s.cs
    ∧ (eventMaskWriteEffect value s).hpu.events = s.hpu.events
    ∧ (eventMaskWriteEffect value s).hpu.result = s.hpu.result
    ∧ (eventMaskWriteEffect value s).hpu.lastCode = s.hpu.lastCode
    ∧ (eventMaskWriteEffect value s).hpu.counters = s.hpu.counters
    ∧ (eventMaskWriteEffect value s).hpu.statSel = s.hpu.statSel
    ∧ (eventMaskWriteEffect value s).hpu.statMode = s.hpu.statMode
    ∧ (eventMaskWriteEffect value s).hpu.memberCopy = s.hpu.memberCopy
    ∧ (eventMaskWriteEffect value s).hpu.mergeCopy = s.hpu.mergeCopy
    ∧ (eventMaskWriteEffect value s).hpu.readWord = s.hpu.readWord
    ∧ (eventMaskWriteEffect value s).hpu.resetnLow = s.hpu.resetnLow ∧ (eventMaskWriteEffect value s).acu = s.acu
    ∧ (eventMaskWriteEffect value s).pending = s.pending
    ∧ (eventMaskWriteEffect value s).pins = s.pins := by
  simp only [eventMaskWriteEffect, onPort]
  (repeat' split) <;> simp

@[simp] theorem statValueWriteEffect_frame (value : Word) (s : State) :
    (statValueWriteEffect value s).stu = s.stu ∧ (statValueWriteEffect value s).ru = s.ru
    ∧ (statValueWriteEffect value s).mu = s.mu ∧ (statValueWriteEffect value s).rcu = s.rcu
    ∧ (statValueWriteEffect value s).hc = s.hc ∧ (statValueWriteEffect value s).bac = s.bac
    ∧ (statValueWriteEffect value s).spc = s.spc ∧ (statValueWriteEffect value s).cs = s.cs
    ∧ (statValueWriteEffect value s).hpu.events = s.hpu.events ∧ (statValueWriteEffect value s).hpu.mask = s.hpu.mask
    ∧ (statValueWriteEffect value s).hpu.result = s.hpu.result
    ∧ (statValueWriteEffect value s).hpu.lastCode = s.hpu.lastCode
    ∧ (statValueWriteEffect value s).hpu.statSel = s.hpu.statSel
    ∧ (statValueWriteEffect value s).hpu.statMode = s.hpu.statMode
    ∧ (statValueWriteEffect value s).hpu.memberCopy = s.hpu.memberCopy
    ∧ (statValueWriteEffect value s).hpu.mergeCopy = s.hpu.mergeCopy
    ∧ (statValueWriteEffect value s).hpu.readWord = s.hpu.readWord
    ∧ (statValueWriteEffect value s).hpu.resetnLow = s.hpu.resetnLow ∧ (statValueWriteEffect value s).acu = s.acu
    ∧ (statValueWriteEffect value s).pending = s.pending
    ∧ (statValueWriteEffect value s).pins = s.pins := by
  simp only [statValueWriteEffect, onPort]
  (repeat' split) <;> simp

@[simp] theorem refreshMemberCopy_frame (s : State) :
    (refreshMemberCopy s).stu = s.stu ∧ (refreshMemberCopy s).ru = s.ru ∧ (refreshMemberCopy s).mu = s.mu
    ∧ (refreshMemberCopy s).rcu = s.rcu ∧ (refreshMemberCopy s).hc = s.hc ∧ (refreshMemberCopy s).bac = s.bac
    ∧ (refreshMemberCopy s).spc = s.spc ∧ (refreshMemberCopy s).cs = s.cs
    ∧ (refreshMemberCopy s).hpu.transaction = s.hpu.transaction ∧ (refreshMemberCopy s).hpu.events = s.hpu.events
    ∧ (refreshMemberCopy s).hpu.mask = s.hpu.mask ∧ (refreshMemberCopy s).hpu.result = s.hpu.result
    ∧ (refreshMemberCopy s).hpu.lastCode = s.hpu.lastCode ∧ (refreshMemberCopy s).hpu.counters = s.hpu.counters
    ∧ (refreshMemberCopy s).hpu.statSel = s.hpu.statSel ∧ (refreshMemberCopy s).hpu.statMode = s.hpu.statMode
    ∧ (refreshMemberCopy s).hpu.mergeCopy = s.hpu.mergeCopy ∧ (refreshMemberCopy s).hpu.readWord = s.hpu.readWord
    ∧ (refreshMemberCopy s).hpu.resetnLow = s.hpu.resetnLow ∧ (refreshMemberCopy s).acu = s.acu
    ∧ (refreshMemberCopy s).pending = s.pending
    ∧ (refreshMemberCopy s).pins = s.pins := by
  simp [refreshMemberCopy]

@[simp] theorem memberSelWriteEffect_frame (value : Word) (s : State) :
    (memberSelWriteEffect value s).stu = s.stu ∧ (memberSelWriteEffect value s).ru.members = s.ru.members
    ∧ (memberSelWriteEffect value s).ru.reports = s.ru.reports ∧ (memberSelWriteEffect value s).mu = s.mu
    ∧ (memberSelWriteEffect value s).rcu = s.rcu ∧ (memberSelWriteEffect value s).hc = s.hc
    ∧ (memberSelWriteEffect value s).bac = s.bac ∧ (memberSelWriteEffect value s).spc = s.spc
    ∧ (memberSelWriteEffect value s).cs = s.cs ∧ (memberSelWriteEffect value s).hpu.events = s.hpu.events
    ∧ (memberSelWriteEffect value s).hpu.mask = s.hpu.mask ∧ (memberSelWriteEffect value s).hpu.result = s.hpu.result
    ∧ (memberSelWriteEffect value s).hpu.lastCode = s.hpu.lastCode
    ∧ (memberSelWriteEffect value s).hpu.counters = s.hpu.counters
    ∧ (memberSelWriteEffect value s).hpu.statSel = s.hpu.statSel
    ∧ (memberSelWriteEffect value s).hpu.statMode = s.hpu.statMode
    ∧ (memberSelWriteEffect value s).hpu.mergeCopy = s.hpu.mergeCopy
    ∧ (memberSelWriteEffect value s).hpu.readWord = s.hpu.readWord
    ∧ (memberSelWriteEffect value s).hpu.resetnLow = s.hpu.resetnLow ∧ (memberSelWriteEffect value s).acu = s.acu
    ∧ (memberSelWriteEffect value s).pending = s.pending
    ∧ (memberSelWriteEffect value s).pins = s.pins := by
  simp only [memberSelWriteEffect, onPort]
  (repeat' split) <;> simp

@[simp] theorem takeMemberRead_frame (word : Fin 4) (s : State) :
    (takeMemberRead word s).stu = s.stu ∧ (takeMemberRead word s).ru = s.ru ∧ (takeMemberRead word s).mu = s.mu
    ∧ (takeMemberRead word s).rcu = s.rcu ∧ (takeMemberRead word s).hc = s.hc ∧ (takeMemberRead word s).bac = s.bac
    ∧ (takeMemberRead word s).spc = s.spc ∧ (takeMemberRead word s).cs = s.cs
    ∧ (takeMemberRead word s).hpu.events = s.hpu.events ∧ (takeMemberRead word s).hpu.mask = s.hpu.mask
    ∧ (takeMemberRead word s).hpu.result = s.hpu.result ∧ (takeMemberRead word s).hpu.lastCode = s.hpu.lastCode
    ∧ (takeMemberRead word s).hpu.counters = s.hpu.counters ∧ (takeMemberRead word s).hpu.statSel = s.hpu.statSel
    ∧ (takeMemberRead word s).hpu.statMode = s.hpu.statMode ∧ (takeMemberRead word s).hpu.mergeCopy = s.hpu.mergeCopy
    ∧ (takeMemberRead word s).hpu.resetnLow = s.hpu.resetnLow ∧ (takeMemberRead word s).acu = s.acu
    ∧ (takeMemberRead word s).pending = s.pending
    ∧ (takeMemberRead word s).pins = s.pins := by
  simp only [takeMemberRead]
  (repeat' split) <;> simp

@[simp] theorem memberViewReadEffect_frame (word : Fin 4) (s : State) :
    (memberViewReadEffect word s).stu = s.stu ∧ (memberViewReadEffect word s).ru = s.ru
    ∧ (memberViewReadEffect word s).mu = s.mu ∧ (memberViewReadEffect word s).rcu = s.rcu
    ∧ (memberViewReadEffect word s).hc = s.hc ∧ (memberViewReadEffect word s).bac = s.bac
    ∧ (memberViewReadEffect word s).spc = s.spc ∧ (memberViewReadEffect word s).cs = s.cs
    ∧ (memberViewReadEffect word s).hpu.events = s.hpu.events ∧ (memberViewReadEffect word s).hpu.mask = s.hpu.mask
    ∧ (memberViewReadEffect word s).hpu.result = s.hpu.result
    ∧ (memberViewReadEffect word s).hpu.lastCode = s.hpu.lastCode
    ∧ (memberViewReadEffect word s).hpu.counters = s.hpu.counters
    ∧ (memberViewReadEffect word s).hpu.statSel = s.hpu.statSel
    ∧ (memberViewReadEffect word s).hpu.statMode = s.hpu.statMode
    ∧ (memberViewReadEffect word s).hpu.mergeCopy = s.hpu.mergeCopy
    ∧ (memberViewReadEffect word s).hpu.resetnLow = s.hpu.resetnLow ∧ (memberViewReadEffect word s).acu = s.acu
    ∧ (memberViewReadEffect word s).pending = s.pending
    ∧ (memberViewReadEffect word s).pins = s.pins := by
  simp only [memberViewReadEffect, onPort]
  (repeat' split) <;> simp

@[simp] theorem refreshMergeCopy_frame (s : State) :
    (refreshMergeCopy s).stu = s.stu ∧ (refreshMergeCopy s).ru = s.ru ∧ (refreshMergeCopy s).mu = s.mu
    ∧ (refreshMergeCopy s).rcu = s.rcu ∧ (refreshMergeCopy s).hc = s.hc ∧ (refreshMergeCopy s).bac = s.bac
    ∧ (refreshMergeCopy s).spc = s.spc ∧ (refreshMergeCopy s).cs = s.cs
    ∧ (refreshMergeCopy s).hpu.transaction = s.hpu.transaction ∧ (refreshMergeCopy s).hpu.events = s.hpu.events
    ∧ (refreshMergeCopy s).hpu.mask = s.hpu.mask ∧ (refreshMergeCopy s).hpu.result = s.hpu.result
    ∧ (refreshMergeCopy s).hpu.lastCode = s.hpu.lastCode ∧ (refreshMergeCopy s).hpu.counters = s.hpu.counters
    ∧ (refreshMergeCopy s).hpu.statSel = s.hpu.statSel ∧ (refreshMergeCopy s).hpu.statMode = s.hpu.statMode
    ∧ (refreshMergeCopy s).hpu.memberCopy = s.hpu.memberCopy ∧ (refreshMergeCopy s).hpu.readWord = s.hpu.readWord
    ∧ (refreshMergeCopy s).hpu.resetnLow = s.hpu.resetnLow ∧ (refreshMergeCopy s).acu = s.acu
    ∧ (refreshMergeCopy s).pending = s.pending
    ∧ (refreshMergeCopy s).pins = s.pins := by
  simp [refreshMergeCopy]

@[simp] theorem mergeSelWriteEffect_frame (value : Word) (s : State) :
    (mergeSelWriteEffect value s).stu = s.stu ∧ (mergeSelWriteEffect value s).ru = s.ru
    ∧ (mergeSelWriteEffect value s).mu.slots = s.mu.slots ∧ (mergeSelWriteEffect value s).mu.current = s.mu.current
    ∧ (mergeSelWriteEffect value s).mu.suspended = s.mu.suspended ∧ (mergeSelWriteEffect value s).rcu = s.rcu
    ∧ (mergeSelWriteEffect value s).hc = s.hc ∧ (mergeSelWriteEffect value s).bac = s.bac
    ∧ (mergeSelWriteEffect value s).spc = s.spc ∧ (mergeSelWriteEffect value s).cs = s.cs
    ∧ (mergeSelWriteEffect value s).hpu.events = s.hpu.events ∧ (mergeSelWriteEffect value s).hpu.mask = s.hpu.mask
    ∧ (mergeSelWriteEffect value s).hpu.result = s.hpu.result
    ∧ (mergeSelWriteEffect value s).hpu.lastCode = s.hpu.lastCode
    ∧ (mergeSelWriteEffect value s).hpu.counters = s.hpu.counters
    ∧ (mergeSelWriteEffect value s).hpu.statSel = s.hpu.statSel
    ∧ (mergeSelWriteEffect value s).hpu.statMode = s.hpu.statMode
    ∧ (mergeSelWriteEffect value s).hpu.memberCopy = s.hpu.memberCopy
    ∧ (mergeSelWriteEffect value s).hpu.readWord = s.hpu.readWord
    ∧ (mergeSelWriteEffect value s).hpu.resetnLow = s.hpu.resetnLow ∧ (mergeSelWriteEffect value s).acu = s.acu
    ∧ (mergeSelWriteEffect value s).pending = s.pending
    ∧ (mergeSelWriteEffect value s).pins = s.pins := by
  simp only [mergeSelWriteEffect, onPort]
  (repeat' split) <;> simp

@[simp] theorem takeMergeRead_frame (word : Fin 4) (s : State) :
    (takeMergeRead word s).stu = s.stu ∧ (takeMergeRead word s).ru = s.ru ∧ (takeMergeRead word s).mu = s.mu
    ∧ (takeMergeRead word s).rcu = s.rcu ∧ (takeMergeRead word s).hc = s.hc ∧ (takeMergeRead word s).bac = s.bac
    ∧ (takeMergeRead word s).spc = s.spc ∧ (takeMergeRead word s).cs = s.cs
    ∧ (takeMergeRead word s).hpu.events = s.hpu.events ∧ (takeMergeRead word s).hpu.mask = s.hpu.mask
    ∧ (takeMergeRead word s).hpu.result = s.hpu.result ∧ (takeMergeRead word s).hpu.lastCode = s.hpu.lastCode
    ∧ (takeMergeRead word s).hpu.counters = s.hpu.counters ∧ (takeMergeRead word s).hpu.statSel = s.hpu.statSel
    ∧ (takeMergeRead word s).hpu.statMode = s.hpu.statMode ∧ (takeMergeRead word s).hpu.memberCopy = s.hpu.memberCopy
    ∧ (takeMergeRead word s).hpu.resetnLow = s.hpu.resetnLow ∧ (takeMergeRead word s).acu = s.acu
    ∧ (takeMergeRead word s).pending = s.pending
    ∧ (takeMergeRead word s).pins = s.pins := by
  simp only [takeMergeRead]
  (repeat' split) <;> simp

@[simp] theorem mergeViewReadEffect_frame (word : Fin 4) (s : State) :
    (mergeViewReadEffect word s).stu = s.stu ∧ (mergeViewReadEffect word s).ru = s.ru
    ∧ (mergeViewReadEffect word s).mu = s.mu ∧ (mergeViewReadEffect word s).rcu = s.rcu
    ∧ (mergeViewReadEffect word s).hc = s.hc ∧ (mergeViewReadEffect word s).bac = s.bac
    ∧ (mergeViewReadEffect word s).spc = s.spc ∧ (mergeViewReadEffect word s).cs = s.cs
    ∧ (mergeViewReadEffect word s).hpu.events = s.hpu.events ∧ (mergeViewReadEffect word s).hpu.mask = s.hpu.mask
    ∧ (mergeViewReadEffect word s).hpu.result = s.hpu.result
    ∧ (mergeViewReadEffect word s).hpu.lastCode = s.hpu.lastCode
    ∧ (mergeViewReadEffect word s).hpu.counters = s.hpu.counters
    ∧ (mergeViewReadEffect word s).hpu.statSel = s.hpu.statSel
    ∧ (mergeViewReadEffect word s).hpu.statMode = s.hpu.statMode
    ∧ (mergeViewReadEffect word s).hpu.memberCopy = s.hpu.memberCopy
    ∧ (mergeViewReadEffect word s).hpu.resetnLow = s.hpu.resetnLow ∧ (mergeViewReadEffect word s).acu = s.acu
    ∧ (mergeViewReadEffect word s).pending = s.pending
    ∧ (mergeViewReadEffect word s).pins = s.pins := by
  simp only [mergeViewReadEffect, onPort]
  (repeat' split) <;> simp

@[simp] theorem unknownCode_frame (code : Word) (s : State) :
    (unknownCode code s).stu = s.stu ∧ (unknownCode code s).ru = s.ru ∧ (unknownCode code s).mu = s.mu
    ∧ (unknownCode code s).rcu = s.rcu ∧ (unknownCode code s).hc = s.hc ∧ (unknownCode code s).bac = s.bac
    ∧ (unknownCode code s).spc = s.spc ∧ (unknownCode code s).cs = s.cs
    ∧ (unknownCode code s).hpu.events = s.hpu.events ∧ (unknownCode code s).hpu.mask = s.hpu.mask
    ∧ (unknownCode code s).hpu.counters = s.hpu.counters ∧ (unknownCode code s).hpu.statSel = s.hpu.statSel
    ∧ (unknownCode code s).hpu.statMode = s.hpu.statMode ∧ (unknownCode code s).hpu.memberCopy = s.hpu.memberCopy
    ∧ (unknownCode code s).hpu.mergeCopy = s.hpu.mergeCopy ∧ (unknownCode code s).hpu.readWord = s.hpu.readWord
    ∧ (unknownCode code s).hpu.resetnLow = s.hpu.resetnLow ∧ (unknownCode code s).acu = s.acu
    ∧ (unknownCode code s).pending = s.pending
    ∧ (unknownCode code s).pins = s.pins := by
  simp only [unknownCode, onPort]
  (repeat' split) <;> simp

@[simp] theorem paramSelWrite_frame (value : Word) (s : State) :
    (paramSelWrite value s).stu = s.stu ∧ (paramSelWrite value s).ru = s.ru ∧ (paramSelWrite value s).mu = s.mu
    ∧ (paramSelWrite value s).rcu = s.rcu ∧ (paramSelWrite value s).hc = s.hc ∧ (paramSelWrite value s).bac = s.bac
    ∧ (paramSelWrite value s).spc = s.spc ∧ (paramSelWrite value s).cs.written = s.cs.written
    ∧ (paramSelWrite value s).cs.committed = s.cs.committed ∧ (paramSelWrite value s).cs.digest = s.cs.digest
    ∧ (paramSelWrite value s).cs.load = s.cs.load ∧ (paramSelWrite value s).cs.error = s.cs.error
    ∧ (paramSelWrite value s).cs.cfgsrc = s.cs.cfgsrc
    ∧ (paramSelWrite value s).cs.eeprom = s.cs.eeprom ∧ (paramSelWrite value s).hpu.events = s.hpu.events
    ∧ (paramSelWrite value s).hpu.mask = s.hpu.mask ∧ (paramSelWrite value s).hpu.result = s.hpu.result
    ∧ (paramSelWrite value s).hpu.lastCode = s.hpu.lastCode ∧ (paramSelWrite value s).hpu.counters = s.hpu.counters
    ∧ (paramSelWrite value s).hpu.statSel = s.hpu.statSel ∧ (paramSelWrite value s).hpu.statMode = s.hpu.statMode
    ∧ (paramSelWrite value s).hpu.memberCopy = s.hpu.memberCopy
    ∧ (paramSelWrite value s).hpu.mergeCopy = s.hpu.mergeCopy ∧ (paramSelWrite value s).hpu.readWord = s.hpu.readWord
    ∧ (paramSelWrite value s).hpu.resetnLow = s.hpu.resetnLow ∧ (paramSelWrite value s).acu = s.acu
    ∧ (paramSelWrite value s).pending = s.pending
    ∧ (paramSelWrite value s).pins = s.pins := by
  simp only [paramSelWrite, onPort]
  (repeat' split) <;> simp

@[simp] theorem statSelWrite_frame (value : Word) (s : State) :
    (statSelWrite value s).stu = s.stu ∧ (statSelWrite value s).ru = s.ru ∧ (statSelWrite value s).mu = s.mu
    ∧ (statSelWrite value s).rcu = s.rcu ∧ (statSelWrite value s).hc = s.hc ∧ (statSelWrite value s).bac = s.bac
    ∧ (statSelWrite value s).spc = s.spc ∧ (statSelWrite value s).cs = s.cs
    ∧ (statSelWrite value s).hpu.events = s.hpu.events ∧ (statSelWrite value s).hpu.mask = s.hpu.mask
    ∧ (statSelWrite value s).hpu.result = s.hpu.result ∧ (statSelWrite value s).hpu.lastCode = s.hpu.lastCode
    ∧ (statSelWrite value s).hpu.counters = s.hpu.counters ∧ (statSelWrite value s).hpu.statMode = s.hpu.statMode
    ∧ (statSelWrite value s).hpu.memberCopy = s.hpu.memberCopy
    ∧ (statSelWrite value s).hpu.mergeCopy = s.hpu.mergeCopy ∧ (statSelWrite value s).hpu.readWord = s.hpu.readWord
    ∧ (statSelWrite value s).hpu.resetnLow = s.hpu.resetnLow ∧ (statSelWrite value s).acu = s.acu
    ∧ (statSelWrite value s).pending = s.pending
    ∧ (statSelWrite value s).pins = s.pins := by
  simp only [statSelWrite, onPort]
  (repeat' split) <;> simp

@[simp] theorem statModeWrite_frame (value : Word) (s : State) :
    (statModeWrite value s).stu = s.stu ∧ (statModeWrite value s).ru = s.ru ∧ (statModeWrite value s).mu = s.mu
    ∧ (statModeWrite value s).rcu = s.rcu ∧ (statModeWrite value s).hc = s.hc ∧ (statModeWrite value s).bac = s.bac
    ∧ (statModeWrite value s).spc = s.spc ∧ (statModeWrite value s).cs = s.cs
    ∧ (statModeWrite value s).hpu.events = s.hpu.events ∧ (statModeWrite value s).hpu.mask = s.hpu.mask
    ∧ (statModeWrite value s).hpu.result = s.hpu.result ∧ (statModeWrite value s).hpu.lastCode = s.hpu.lastCode
    ∧ (statModeWrite value s).hpu.counters = s.hpu.counters ∧ (statModeWrite value s).hpu.statSel = s.hpu.statSel
    ∧ (statModeWrite value s).hpu.memberCopy = s.hpu.memberCopy
    ∧ (statModeWrite value s).hpu.mergeCopy = s.hpu.mergeCopy ∧ (statModeWrite value s).hpu.readWord = s.hpu.readWord
    ∧ (statModeWrite value s).hpu.resetnLow = s.hpu.resetnLow ∧ (statModeWrite value s).acu = s.acu
    ∧ (statModeWrite value s).pending = s.pending
    ∧ (statModeWrite value s).pins = s.pins := by
  simp only [statModeWrite, onPort]
  (repeat' split) <;> simp

@[simp] theorem ignoredWrite_frame (s : State) :
    (ignoredWrite s).stu = s.stu ∧ (ignoredWrite s).ru = s.ru ∧ (ignoredWrite s).mu = s.mu
    ∧ (ignoredWrite s).rcu = s.rcu ∧ (ignoredWrite s).hc = s.hc ∧ (ignoredWrite s).bac = s.bac
    ∧ (ignoredWrite s).spc = s.spc ∧ (ignoredWrite s).cs = s.cs ∧ (ignoredWrite s).hpu.events = s.hpu.events
    ∧ (ignoredWrite s).hpu.mask = s.hpu.mask ∧ (ignoredWrite s).hpu.result = s.hpu.result
    ∧ (ignoredWrite s).hpu.lastCode = s.hpu.lastCode ∧ (ignoredWrite s).hpu.counters = s.hpu.counters
    ∧ (ignoredWrite s).hpu.statSel = s.hpu.statSel ∧ (ignoredWrite s).hpu.statMode = s.hpu.statMode
    ∧ (ignoredWrite s).hpu.memberCopy = s.hpu.memberCopy ∧ (ignoredWrite s).hpu.mergeCopy = s.hpu.mergeCopy
    ∧ (ignoredWrite s).hpu.readWord = s.hpu.readWord ∧ (ignoredWrite s).hpu.resetnLow = s.hpu.resetnLow
    ∧ (ignoredWrite s).acu = s.acu ∧ (ignoredWrite s).pending = s.pending
    ∧ (ignoredWrite s).pins = s.pins := by
  simp only [ignoredWrite, onPort]
  (repeat' split) <;> simp

@[simp] theorem resetPart_frame (cfgsrc : Bool) (transaction : Transaction) (readWord : Word) (resetnLow : Bool) (s : State) :
    (resetPart cfgsrc transaction readWord resetnLow s).stu.gateHigh = s.stu.gateHigh
    ∧ (resetPart cfgsrc transaction readWord resetnLow s).hc.freezeReason = s.hc.freezeReason
    ∧ (resetPart cfgsrc transaction readWord resetnLow s).pending = s.pending
    ∧ (resetPart cfgsrc transaction readWord resetnLow s).pins = s.pins := by
  simp [resetPart, Stu.afterReset, Hc.afterReset]

@[simp] theorem softResetNow_frame (cfgsrc : Bool) (s : State) :
    (softResetNow cfgsrc s).stu.gateHigh = s.stu.gateHigh
    ∧ (softResetNow cfgsrc s).hc.freezeReason = s.hc.freezeReason
    ∧ (softResetNow cfgsrc s).hpu.transaction = s.hpu.transaction
    ∧ (softResetNow cfgsrc s).hpu.readWord = s.hpu.readWord ∧ (softResetNow cfgsrc s).hpu.resetnLow = s.hpu.resetnLow
    ∧ (softResetNow cfgsrc s).pending = s.pending ∧ (softResetNow cfgsrc s).pins = s.pins := by
  simp [softResetNow, resetPart, Stu.afterReset, Hc.afterReset, Hpu.afterReset]

@[simp] theorem setCfgsrc_frame (high : Bool) (s : State) :
    (setCfgsrc high s).stu = s.stu ∧ (setCfgsrc high s).ru = s.ru ∧ (setCfgsrc high s).mu = s.mu
    ∧ (setCfgsrc high s).rcu = s.rcu ∧ (setCfgsrc high s).hc = s.hc ∧ (setCfgsrc high s).bac = s.bac
    ∧ (setCfgsrc high s).spc = s.spc ∧ (setCfgsrc high s).cs.written = s.cs.written
    ∧ (setCfgsrc high s).cs.committed = s.cs.committed ∧ (setCfgsrc high s).cs.digest = s.cs.digest
    ∧ (setCfgsrc high s).cs.load = s.cs.load ∧ (setCfgsrc high s).cs.error = s.cs.error
    ∧ (setCfgsrc high s).cs.selector = s.cs.selector ∧ (setCfgsrc high s).cs.eeprom = s.cs.eeprom
    ∧ (setCfgsrc high s).hpu = s.hpu ∧ (setCfgsrc high s).acu = s.acu ∧ (setCfgsrc high s).pending = s.pending
    ∧ (setCfgsrc high s).pins = s.pins := by
  simp [setCfgsrc]

@[simp] theorem takeSoftReset_frame (cfgsrc : Bool) (s : State) :
    (takeSoftReset cfgsrc s).stu.gateHigh = s.stu.gateHigh
    ∧ (takeSoftReset cfgsrc s).hc.freezeReason = s.hc.freezeReason
    ∧ (takeSoftReset cfgsrc s).hpu.transaction = s.hpu.transaction
    ∧ (takeSoftReset cfgsrc s).hpu.readWord = s.hpu.readWord
    ∧ (takeSoftReset cfgsrc s).hpu.resetnLow = s.hpu.resetnLow ∧ (takeSoftReset cfgsrc s).pending = s.pending
    ∧ (takeSoftReset cfgsrc s).pins = s.pins := by
  simp only [takeSoftReset]
  (repeat' split) <;> simp

@[simp] theorem softResetEffect_frame (cfgsrc : Bool) (s : State) :
    (softResetEffect cfgsrc s).stu.gateHigh = s.stu.gateHigh
    ∧ (softResetEffect cfgsrc s).hc.freezeReason = s.hc.freezeReason
    ∧ (softResetEffect cfgsrc s).hpu.readWord = s.hpu.readWord
    ∧ (softResetEffect cfgsrc s).hpu.resetnLow = s.hpu.resetnLow ∧ (softResetEffect cfgsrc s).pending = s.pending
    ∧ (softResetEffect cfgsrc s).pins = s.pins := by
  simp only [softResetEffect, hostCommand, onPort, commandTaken]
  (repeat' split) <;> simp

@[simp] theorem softResetTakesEffectEffect_frame (cfgsrc : Bool) (s : State) :
    (softResetTakesEffectEffect cfgsrc s).stu.gateHigh = s.stu.gateHigh
    ∧ (softResetTakesEffectEffect cfgsrc s).hc.freezeReason = s.hc.freezeReason
    ∧ (softResetTakesEffectEffect cfgsrc s).hpu.transaction = s.hpu.transaction
    ∧ (softResetTakesEffectEffect cfgsrc s).hpu.readWord = s.hpu.readWord
    ∧ (softResetTakesEffectEffect cfgsrc s).hpu.resetnLow = s.hpu.resetnLow
    ∧ (softResetTakesEffectEffect cfgsrc s).pending = s.pending ∧ (softResetTakesEffectEffect cfgsrc s).pins = s.pins := by
  simp only [softResetTakesEffectEffect]
  (repeat' split) <;> simp

@[simp] theorem pinResetEffect_frame (cfgsrc : Bool) (s : State) :
    (pinResetEffect cfgsrc s).stu.gateHigh = s.stu.gateHigh
    ∧ (pinResetEffect cfgsrc s).hc.freezeReason = s.hc.freezeReason ∧ (pinResetEffect cfgsrc s).pending = s.pending
    ∧ (pinResetEffect cfgsrc s).pins = s.pins := by
  simp [pinResetEffect]

@[simp] theorem commandWrite_frame (code : Word) (s : State) :
    (commandWrite code s).stu.gateHigh = s.stu.gateHigh ∧ (commandWrite code s).hc.freezeReason = s.hc.freezeReason
    ∧ (commandWrite code s).hpu.readWord = s.hpu.readWord ∧ (commandWrite code s).hpu.resetnLow = s.hpu.resetnLow
    ∧ (commandWrite code s).pending = s.pending ∧ (commandWrite code s).pins = s.pins := by
  simp only [commandWrite]
  (repeat' split) <;> simp

@[simp] theorem registerWriteEffect_frame (address : BitVec 7) (value : Word) (s : State) :
    (registerWriteEffect address value s).stu.gateHigh = s.stu.gateHigh
    ∧ (registerWriteEffect address value s).hc.freezeReason = s.hc.freezeReason
    ∧ (registerWriteEffect address value s).hpu.readWord = s.hpu.readWord
    ∧ (registerWriteEffect address value s).hpu.resetnLow = s.hpu.resetnLow
    ∧ (registerWriteEffect address value s).pending = s.pending ∧ (registerWriteEffect address value s).pins = s.pins := by
  simp only [registerWriteEffect]
  (repeat' split) <;> simp

@[simp] theorem takeRead_frame (address : BitVec 7) (s : State) :
    (takeRead address s).stu = s.stu ∧ (takeRead address s).ru = s.ru ∧ (takeRead address s).mu = s.mu
    ∧ (takeRead address s).rcu.queue = s.rcu.queue ∧ (takeRead address s).rcu.projFirst = s.rcu.projFirst
    ∧ (takeRead address s).rcu.projCount = s.rcu.projCount ∧ (takeRead address s).rcu.backlog = s.rcu.backlog
    ∧ (takeRead address s).hc = s.hc ∧ (takeRead address s).bac = s.bac ∧ (takeRead address s).spc = s.spc
    ∧ (takeRead address s).cs = s.cs ∧ (takeRead address s).hpu.events = s.hpu.events
    ∧ (takeRead address s).hpu.mask = s.hpu.mask ∧ (takeRead address s).hpu.result = s.hpu.result
    ∧ (takeRead address s).hpu.lastCode = s.hpu.lastCode ∧ (takeRead address s).hpu.counters = s.hpu.counters
    ∧ (takeRead address s).hpu.statSel = s.hpu.statSel ∧ (takeRead address s).hpu.statMode = s.hpu.statMode
    ∧ (takeRead address s).hpu.resetnLow = s.hpu.resetnLow ∧ (takeRead address s).acu = s.acu
    ∧ (takeRead address s).pending = s.pending ∧ (takeRead address s).pins = s.pins := by
  simp only [takeRead, onPort, readTaken]
  (repeat' split) <;> simp

@[simp] theorem moveTransaction_frame (x : Transaction) (s : State) :
    (moveTransaction x s).stu = s.stu ∧ (moveTransaction x s).ru = s.ru ∧ (moveTransaction x s).mu = s.mu
    ∧ (moveTransaction x s).rcu = s.rcu ∧ (moveTransaction x s).hc = s.hc ∧ (moveTransaction x s).bac = s.bac
    ∧ (moveTransaction x s).spc = s.spc ∧ (moveTransaction x s).cs = s.cs
    ∧ (moveTransaction x s).hpu.events = s.hpu.events ∧ (moveTransaction x s).hpu.mask = s.hpu.mask
    ∧ (moveTransaction x s).hpu.result = s.hpu.result ∧ (moveTransaction x s).hpu.lastCode = s.hpu.lastCode
    ∧ (moveTransaction x s).hpu.counters = s.hpu.counters ∧ (moveTransaction x s).hpu.statSel = s.hpu.statSel
    ∧ (moveTransaction x s).hpu.statMode = s.hpu.statMode ∧ (moveTransaction x s).hpu.memberCopy = s.hpu.memberCopy
    ∧ (moveTransaction x s).hpu.mergeCopy = s.hpu.mergeCopy ∧ (moveTransaction x s).hpu.readWord = s.hpu.readWord
    ∧ (moveTransaction x s).hpu.resetnLow = s.hpu.resetnLow ∧ (moveTransaction x s).acu = s.acu
    ∧ (moveTransaction x s).pending = s.pending ∧ (moveTransaction x s).pins = s.pins := by
  simp [moveTransaction]

@[simp] theorem takeCommandByte_frame (selector : BitVec 5) (bits : List Bool) (s : State) :
    (takeCommandByte selector bits s).stu = s.stu ∧ (takeCommandByte selector bits s).ru = s.ru ∧ (takeCommandByte selector bits s).mu = s.mu
    ∧ (takeCommandByte selector bits s).rcu.queue = s.rcu.queue ∧ (takeCommandByte selector bits s).rcu.projFirst = s.rcu.projFirst
    ∧ (takeCommandByte selector bits s).rcu.projCount = s.rcu.projCount ∧ (takeCommandByte selector bits s).rcu.backlog = s.rcu.backlog
    ∧ (takeCommandByte selector bits s).hc = s.hc ∧ (takeCommandByte selector bits s).bac = s.bac ∧ (takeCommandByte selector bits s).spc = s.spc
    ∧ (takeCommandByte selector bits s).cs = s.cs ∧ (takeCommandByte selector bits s).hpu.events = s.hpu.events
    ∧ (takeCommandByte selector bits s).hpu.mask = s.hpu.mask ∧ (takeCommandByte selector bits s).hpu.result = s.hpu.result
    ∧ (takeCommandByte selector bits s).hpu.lastCode = s.hpu.lastCode ∧ (takeCommandByte selector bits s).hpu.counters = s.hpu.counters
    ∧ (takeCommandByte selector bits s).hpu.statSel = s.hpu.statSel ∧ (takeCommandByte selector bits s).hpu.statMode = s.hpu.statMode
    ∧ (takeCommandByte selector bits s).hpu.resetnLow = s.hpu.resetnLow ∧ (takeCommandByte selector bits s).acu = s.acu
    ∧ (takeCommandByte selector bits s).pending = s.pending ∧ (takeCommandByte selector bits s).pins = s.pins := by
  simp only [takeCommandByte]
  (repeat' split) <;> simp

@[simp] theorem hselnFalls_frame (s : State) :
    (hselnFalls s).stu = s.stu ∧ (hselnFalls s).ru = s.ru ∧ (hselnFalls s).mu = s.mu ∧ (hselnFalls s).rcu = s.rcu
    ∧ (hselnFalls s).hc = s.hc ∧ (hselnFalls s).bac = s.bac ∧ (hselnFalls s).spc = s.spc ∧ (hselnFalls s).cs = s.cs
    ∧ (hselnFalls s).hpu.events = s.hpu.events ∧ (hselnFalls s).hpu.mask = s.hpu.mask
    ∧ (hselnFalls s).hpu.result = s.hpu.result ∧ (hselnFalls s).hpu.lastCode = s.hpu.lastCode
    ∧ (hselnFalls s).hpu.counters = s.hpu.counters ∧ (hselnFalls s).hpu.statSel = s.hpu.statSel
    ∧ (hselnFalls s).hpu.statMode = s.hpu.statMode ∧ (hselnFalls s).hpu.memberCopy = s.hpu.memberCopy
    ∧ (hselnFalls s).hpu.mergeCopy = s.hpu.mergeCopy ∧ (hselnFalls s).hpu.readWord = s.hpu.readWord
    ∧ (hselnFalls s).hpu.resetnLow = s.hpu.resetnLow ∧ (hselnFalls s).acu = s.acu ∧ (hselnFalls s).pending = s.pending
    ∧ (hselnFalls s).pins = s.pins := by
  simp only [hselnFalls]
  (repeat' split) <;> simp

@[simp] theorem hsckRises_frame (hsdi : Bool) (s : State) :
    (hsckRises hsdi s).stu.gateHigh = s.stu.gateHigh ∧ (hsckRises hsdi s).hc.freezeReason = s.hc.freezeReason
    ∧ (hsckRises hsdi s).hpu.resetnLow = s.hpu.resetnLow ∧ (hsckRises hsdi s).pending = s.pending
    ∧ (hsckRises hsdi s).pins = s.pins := by
  simp only [hsckRises]
  (repeat' split) <;> simp

@[simp] theorem hsckFalls_frame (s : State) :
    (hsckFalls s).stu = s.stu ∧ (hsckFalls s).ru = s.ru ∧ (hsckFalls s).mu = s.mu ∧ (hsckFalls s).rcu = s.rcu
    ∧ (hsckFalls s).hc = s.hc ∧ (hsckFalls s).bac = s.bac ∧ (hsckFalls s).spc = s.spc ∧ (hsckFalls s).cs = s.cs
    ∧ (hsckFalls s).hpu.events = s.hpu.events ∧ (hsckFalls s).hpu.mask = s.hpu.mask
    ∧ (hsckFalls s).hpu.result = s.hpu.result ∧ (hsckFalls s).hpu.lastCode = s.hpu.lastCode
    ∧ (hsckFalls s).hpu.counters = s.hpu.counters ∧ (hsckFalls s).hpu.statSel = s.hpu.statSel
    ∧ (hsckFalls s).hpu.statMode = s.hpu.statMode ∧ (hsckFalls s).hpu.memberCopy = s.hpu.memberCopy
    ∧ (hsckFalls s).hpu.mergeCopy = s.hpu.mergeCopy ∧ (hsckFalls s).hpu.readWord = s.hpu.readWord
    ∧ (hsckFalls s).hpu.resetnLow = s.hpu.resetnLow ∧ (hsckFalls s).acu = s.acu ∧ (hsckFalls s).pending = s.pending
    ∧ (hsckFalls s).pins = s.pins := by
  simp only [hsckFalls]
  (repeat' split) <;> simp

@[simp] theorem pinEventInReset_frame (e : PinEvent) (s : State) :
    (pinEventInReset e s).stu = s.stu ∧ (pinEventInReset e s).ru = s.ru ∧ (pinEventInReset e s).mu = s.mu
    ∧ (pinEventInReset e s).rcu = s.rcu ∧ (pinEventInReset e s).hc = s.hc ∧ (pinEventInReset e s).bac = s.bac
    ∧ (pinEventInReset e s).spc.capture = s.spc.capture ∧ (pinEventInReset e s).spc.tag = s.spc.tag
    ∧ (pinEventInReset e s).spc.ready = s.spc.ready ∧ (pinEventInReset e s).spc.clocked = s.spc.clocked
    ∧ (pinEventInReset e s).spc.clockTime = s.spc.clockTime ∧ (pinEventInReset e s).spc.raw = s.spc.raw
    ∧ (pinEventInReset e s).spc.table = s.spc.table ∧ (pinEventInReset e s).spc.phase = s.spc.phase
    ∧ (pinEventInReset e s).spc.count = s.spc.count ∧ (pinEventInReset e s).spc.sums = s.spc.sums
    ∧ (pinEventInReset e s).spc.result = s.spc.result ∧ (pinEventInReset e s).spc.insel = s.spc.insel
    ∧ (pinEventInReset e s).spc.elapsed = s.spc.elapsed
    ∧ (pinEventInReset e s).cs.written = s.cs.written
    ∧ (pinEventInReset e s).cs.committed = s.cs.committed ∧ (pinEventInReset e s).cs.digest = s.cs.digest
    ∧ (pinEventInReset e s).cs.load = s.cs.load ∧ (pinEventInReset e s).cs.error = s.cs.error
    ∧ (pinEventInReset e s).cs.selector = s.cs.selector
    ∧ (pinEventInReset e s).hpu.events = s.hpu.events ∧ (pinEventInReset e s).hpu.mask = s.hpu.mask
    ∧ (pinEventInReset e s).hpu.result = s.hpu.result ∧ (pinEventInReset e s).hpu.lastCode = s.hpu.lastCode
    ∧ (pinEventInReset e s).hpu.counters = s.hpu.counters ∧ (pinEventInReset e s).hpu.statSel = s.hpu.statSel
    ∧ (pinEventInReset e s).hpu.statMode = s.hpu.statMode ∧ (pinEventInReset e s).hpu.memberCopy = s.hpu.memberCopy
    ∧ (pinEventInReset e s).hpu.mergeCopy = s.hpu.mergeCopy ∧ (pinEventInReset e s).hpu.readWord = s.hpu.readWord
    ∧ (pinEventInReset e s).hpu.resetnLow = s.hpu.resetnLow ∧ (pinEventInReset e s).acu = s.acu
    ∧ (pinEventInReset e s).pending = s.pending ∧ (pinEventInReset e s).pins = s.pins := by
  simp only [pinEventInReset]
  (repeat' split) <;> simp

@[simp] theorem pinEvent_frame (e : PinEvent) (s : State) :
    (pinEvent e s).stu.gateHigh = s.stu.gateHigh ∧ (pinEvent e s).hc.freezeReason = s.hc.freezeReason
    ∧ (pinEvent e s).hpu.resetnLow = s.hpu.resetnLow ∧ (pinEvent e s).pending = s.pending
    ∧ (pinEvent e s).pins = s.pins := by
  simp only [pinEvent]
  (repeat' split) <;> simp

@[simp] theorem Spc.tick_frame (w : Nat) (p : Spc) :
    (p.tick w).capture = p.capture ∧ (p.tick w).tag = p.tag ∧ (p.tick w).ready = p.ready ∧ (p.tick w).sdata = p.sdata
    ∧ (p.tick w).raw = p.raw ∧ (p.tick w).table = p.table ∧ (p.tick w).phase = p.phase ∧ (p.tick w).count = p.count
    ∧ (p.tick w).sums = p.sums ∧ (p.tick w).result = p.result ∧ (p.tick w).insel = p.insel := by
  simp only [Spc.tick]
  split <;> simp

@[simp] theorem tick_frame (s : State) :
    (tick s).stu.gate = s.stu.gate ∧ (tick s).stu.gateHigh = s.stu.gateHigh ∧ (tick s).stu.faultSeen = s.stu.faultSeen
    ∧ (tick s).stu.take = s.stu.take ∧ (tick s).stu.index = s.stu.index ∧ (tick s).stu.formed = s.stu.formed
    ∧ (tick s).stu.stallFlag = s.stu.stallFlag ∧ (tick s).stu.solo = s.stu.solo
    ∧ (tick s).stu.soloMade = s.stu.soloMade ∧ (tick s).stu.boundaryTime = s.stu.boundaryTime
    ∧ (tick s).stu.startSerial = s.stu.startSerial ∧ (tick s).ru.selector = s.ru.selector
    ∧ (tick s).ru.reports = s.ru.reports ∧ (tick s).mu = s.mu ∧ (tick s).rcu = s.rcu
    ∧ (tick s).hc.backlogReason = s.hc.backlogReason ∧ (tick s).hc.freezeReason = s.hc.freezeReason
    ∧ (tick s).hc.selfHold = s.hc.selfHold ∧ (tick s).hc.requested = s.hc.requested
    ∧ (tick s).hc.lastSent = s.hc.lastSent ∧ (tick s).bac.line = s.bac.line ∧ (tick s).bac.receiver = s.bac.receiver
    ∧ (tick s).bac.transmitter = s.bac.transmitter ∧ (tick s).bac.inbound = s.bac.inbound
    ∧ (tick s).bac.holdItem = s.bac.holdItem ∧ (tick s).bac.rosterItem = s.bac.rosterItem
    ∧ (tick s).bac.scanItems = s.bac.scanItems ∧ (tick s).bac.inTx = s.bac.inTx
    ∧ (tick s).bac.busyMark = s.bac.busyMark ∧ (tick s).bac.backoff = s.bac.backoff
    ∧ (tick s).bac.resetPending = s.bac.resetPending ∧ (tick s).spc.capture = s.spc.capture
    ∧ (tick s).spc.tag = s.spc.tag ∧ (tick s).spc.ready = s.spc.ready ∧ (tick s).spc.raw = s.spc.raw
    ∧ (tick s).spc.table = s.spc.table ∧ (tick s).spc.phase = s.spc.phase ∧ (tick s).spc.count = s.spc.count
    ∧ (tick s).spc.sums = s.spc.sums ∧ (tick s).spc.result = s.spc.result ∧ (tick s).spc.insel = s.spc.insel
    ∧ (tick s).cs.written = s.cs.written ∧ (tick s).cs.committed = s.cs.committed ∧ (tick s).cs.digest = s.cs.digest
    ∧ (tick s).cs.load = s.cs.load ∧ (tick s).cs.error = s.cs.error ∧ (tick s).cs.selector = s.cs.selector
    ∧ (tick s).cs.cfgsrc = s.cs.cfgsrc ∧ (tick s).hpu = s.hpu ∧ (tick s).acu.state = s.acu.state
    ∧ (tick s).acu.joinScan = s.acu.joinScan ∧ (tick s).acu.leaveScan = s.acu.leaveScan
    ∧ (tick s).acu.admission = s.acu.admission ∧ (tick s).acu.matchingSeen = s.acu.matchingSeen
    ∧ (tick s).acu.mismatchingSeen = s.acu.mismatchingSeen ∧ (tick s).acu.refusalPending = s.acu.refusalPending
    ∧ (tick s).acu.drain = s.acu.drain ∧ (tick s).acu.reason = s.acu.reason ∧ (tick s).pending = s.pending
    ∧ (tick s).pins = s.pins
    ∧ (tick s).spc.sdata = s.spc.sdata := by
  simp [tick, Stu.tick, Bac.tick]

end Sys2Proof.Machine
end

