-- ==== Sys2Proof/Laws/SamplePort.lean ====
section
/-! SUPPORT. What the operations of the sample port do: the bits of a burst of SCLK, and when a channel becomes ready. -/
namespace Sys2Proof.Machine

/-! ### The bits of a burst (R133) -/

/-- The levels at `n` pulses are `n` levels. -/
@[simp] theorem levelsAtPulses_length (n : Nat) (now : SdataLevels) (coming : List SdataLevels) :
    (levelsAtPulses n now coming).length = n := by
  induction n generalizing now coming with
  | zero => rfl
  | succ n ih => cases coming <;> simp [levelsAtPulses, ih]

/-- The level at pulse `i` is the one named for it, and beyond the end of the list the last one before. -/
theorem levelsAtPulses_getElem? (n : Nat) (now : SdataLevels) (coming : List SdataLevels) (i : Nat) (h : i < n) :
    (levelsAtPulses n now coming)[i]? = some (coming.getD i (coming.getLastD now)) := by
  induction n generalizing now coming i with
  | zero => omega
  | succ n ih =>
    cases coming with
    | nil =>
      cases i with
      | zero => simp [levelsAtPulses]
      | succ i => simpa [levelsAtPulses] using ih now [] i (by omega)
    | cons next rest =>
      cases i with
      | zero => simp [levelsAtPulses]
      | succ i => simpa [levelsAtPulses, List.getLast?_cons] using ih next rest i (by omega)

/-- One more bit is the new lowest bit. -/
@[simp] theorem ofBits_append (bits : List Bool) (b : Bool) : ofBits (bits ++ [b]) = 2 * ofBits bits + b.toNat := by
  simp [ofBits]

/-- A number of `n` bits is below 2^n. -/
theorem ofBits_lt (bits : List Bool) : ofBits bits < 2 ^ bits.length := by
  induction bits using List.reverseRecOn with
  | nil => decide
  | append_singleton bits b ih =>
    have hb : b.toNat ≤ 1 := by cases b <;> decide
    simp only [ofBits_append, List.length_append, List.length_singleton, Nat.pow_succ]
    omega

/-- The first bit sampled is the most significant one. -/
theorem ofBits_testBit (bits : List Bool) (i : Nat) (h : i < bits.length) :
    (ofBits bits).testBit (bits.length - 1 - i) = bits[i] := by
  induction bits using List.reverseRecOn with
  | nil => simp at h
  | append_singleton bits b ih =>
    simp only [ofBits_append, List.length_append, List.length_singleton] at h ⊢
    rcases Nat.lt_or_ge i bits.length with hi | hi
    · have hk : bits.length + 1 - 1 - i = (bits.length - 1 - i) + 1 := by omega
      have hd : (2 * ofBits bits + b.toNat) / 2 = ofBits bits := by cases b <;> simp; omega
      rw [hk, Nat.testBit_succ, hd, ih hi, List.getElem_append_left]
    · have hi' : i = bits.length := by omega
      subst hi'
      cases b <;> simp [Nat.testBit_zero]

/-- A raw value lies from 0 to 2^w − 1. -/
theorem rawOfPulses_lt (w : Nat) (pulses : List SdataLevels) (c : Channel) : (rawOfPulses w pulses c).toNat < 2 ^ w := by
  have h := ofBits_lt ((pulses.take w).map fun levels => levels[c])
  have hl : ((pulses.take w).map fun levels => levels[c]).length ≤ w := by simp
  exact Nat.lt_of_le_of_lt (by simpa [rawOfPulses] using Nat.mod_le _ _)
    (Nat.lt_of_lt_of_le h (Nat.pow_le_pow_right (by decide) hl))

/-- The bit taken at pulse `i` of a whole burst is bit w − 1 − i of the raw value. -/
theorem rawOfPulses_getLsbD (w : Nat) (pulses : List SdataLevels) (c : Channel) (i : Nat) (hw : w ≤ 24)
    (hl : w ≤ pulses.length) (hi : i < w) :
    (rawOfPulses w pulses c).getLsbD (w - 1 - i) = (pulses[i]'(by omega))[c] := by
  have hlen : ((pulses.take w).map fun levels => levels[c]).length = w := by simp; omega
  have h := ofBits_testBit ((pulses.take w).map fun levels => levels[c]) i (by omega)
  simp only [hlen] at h
  simp only [rawOfPulses, BitVec.getLsbD_ofNat, h, List.getElem_map, List.getElem_take]
  simp; omega

/-! ### Readiness (R133) -/

/-- What the fall of the line of channel `c` can do: the level is noted; and where the fall makes the channel ready, the
burst begins once no enabled channel is left. -/
theorem channelReadyEffect_cases (c : Channel) (s : State) :
    (s.awaitsFall c = false ∧ channelReadyEffect c s = s.withSpc { s.spc with sdata := s.spc.sdata.set c false })
    ∨ ∃ ready : Spc, s.awaitsFall c = true
      ∧ ready = { s.spc with sdata := s.spc.sdata.set c false, ready := s.spc.ready.set c true }
      ∧ ((s.withSpc ready).lowestNotReady ≠ none ∧ channelReadyEffect c s = s.withSpc ready
        ∨ (s.withSpc ready).lowestNotReady = none
          ∧ channelReadyEffect c s = s.withSpc { ready with capture := .clocking, clocked := [], clockTime := 0 }) := by
  cases h : s.awaitsFall c with
  | false => exact .inl ⟨rfl, by simp [channelReadyEffect, h, setSdata]⟩
  | true =>
    refine .inr ⟨_, rfl, rfl, ?_⟩
    cases hn : (s.withSpc { s.spc with sdata := s.spc.sdata.set c false, ready := s.spc.ready.set c true }).lowestNotReady with
    | none => exact .inr ⟨rfl, by simp [channelReadyEffect, h, setSdata, startClocking, State.withSpc] at hn ⊢; simp [hn]⟩
    | some d =>
      exact .inl ⟨by simp, by
        simp [channelReadyEffect, h, setSdata, startClocking, State.withSpc] at hn ⊢
        simp [hn]⟩

end Sys2Proof.Machine
end

