-- ==== Sys2Proof/Laws/ConfigStore.lean ====
section
/-! SUPPORT. What the EEPROM port does: the bytes of a bit string, what one edge of ECK can do, and that it keeps the law of the
read in progress (R150). -/
namespace Sys2Proof.Machine

/-! ### The bytes of a bit string -/

@[simp] theorem bytesOfBits_length (bits : List Bool) : (bytesOfBits bits).length = bits.length / 8 := by
  simp [bytesOfBits]

theorem bytesOfBits_getElem? (bits : List Bool) (i : Nat) (h : i < bits.length / 8) :
    (bytesOfBits bits)[i]? = some (BitVec.ofNat 8 (ofBits ((bits.drop (8 * i)).take 8))) := by
  simp [bytesOfBits, h]

/-- Every byte comes most significant bit first. -/
theorem bytesOfBits_bit (bits : List Bool) (i : Nat) (b : Byte) (h : (bytesOfBits bits)[i]? = some b) (j : Nat)
    (hj : j < 8) : bits[8 * i + j]? = some (b.getLsbD (7 - j)) := by
  obtain ⟨hi, -⟩ := List.getElem?_eq_some_iff.mp h
  rw [bytesOfBits_length] at hi
  rw [bytesOfBits_getElem? bits i hi, Option.some.injEq] at h
  subst h
  have hlen : ((bits.drop (8 * i)).take 8).length = 8 := by simp; omega
  have hbit := ofBits_testBit ((bits.drop (8 * i)).take 8) j (by omega)
  have hin : 8 * i + j < bits.length := by omega
  simp only [hlen, List.getElem_take, List.getElem_drop, show 8 - 1 - j = 7 - j by omega] at hbit
  rw [List.getElem?_eq_getElem hin, BitVec.getLsbD_ofNat, hbit]
  simp [show 7 - j < 8 by omega]

/-- A byte that is in stays as it is when another bit comes. -/
theorem bytesOfBits_append (bits : List Bool) (b : Bool) (i : Nat) (h : i < bits.length / 8) :
    (bytesOfBits (bits ++ [b]))[i]? = (bytesOfBits bits)[i]? := by
  have h' : i < (bits ++ [b]).length / 8 := by simp; omega
  rw [bytesOfBits_getElem? _ _ h', bytesOfBits_getElem? _ _ h, List.drop_append_of_le_length (by omega),
    List.take_append_of_le_length (by simp; omega)]

/-! ### The edges of ECK -/

theorem imageLength_ge (image : List Byte) : 2 ≤ imageLength image := by
  simp only [imageLength]; split <;> omega

/-- The first two bytes alone say how long an image is. -/
theorem imageLength_congr {a b : List Byte} (h0 : a[0]? = b[0]?) (h1 : a[1]? = b[1]?) : imageLength a = imageLength b := by
  simp [imageLength, imageByte, List.getD_eq_getElem?_getD, h0, h1]

/-- R150: the read takes 24 cycles and 8 for each image byte. -/
theorem imageReadCycles_eq (image : List Byte) : imageReadCycles image = 24 + 8 * imageLength image := rfl

theorem EepromPort.readOver_iff (p : EepromPort) :
    p.readOver = true ↔ p.eckHigh = false ∧ imageReadCycles p.image ≤ p.eckCycles := by
  simp [EepromPort.readOver]

/-- What one edge of ECK can do: nothing once the read is over; else a fall ends a cycle, and a rise samples EDI. -/
theorem EepromPort.eckEdge_cases (p : EepromPort) :
    (p.readOver = true ∧ p.eckEdge = p)
    ∨ (p.eckHigh = true ∧ p.eckEdge = { p with eckHigh := false, eckCycles := p.eckCycles + 1 })
    ∨ (p.eckHigh = false ∧ p.eckCycles < imageReadCycles p.image
      ∧ p.eckEdge = { p with eckHigh := true, bits := if p.eckCycles < 24 then p.bits else p.bits ++ [p.edi] }) := by
  by_cases h : p.readOver = true
  · exact .inl ⟨h, by simp [EepromPort.eckEdge, h]⟩
  · rw [Bool.not_eq_true] at h
    cases hk : p.eckHigh with
    | true => exact .inr (.inl ⟨rfl, by simp [EepromPort.eckEdge, h, hk, EepromPort.eckFalls]⟩)
    | false =>
      refine .inr (.inr ⟨rfl, ?_, by simp [EepromPort.eckEdge, h, hk, EepromPort.eckRises, edoBytes]⟩)
      simpa [EepromPort.readOver, hk] using h

/-- Every edge of ECK keeps the law of the read in progress. -/
theorem EepromPort.eckEdge_lawful {p : EepromPort} (h : p.Lawful) : p.eckEdge.Lawful := by
  obtain ⟨hb, hc⟩ := h
  rcases p.eckEdge_cases with ⟨-, he⟩ | ⟨hk, he⟩ | ⟨hk, hlt, he⟩
  · rw [he]; exact ⟨hb, hc⟩
  · rw [hk, Bool.toNat_true] at hb hc
    rw [he]; exact ⟨hb, hc⟩
  · rw [hk, Bool.toNat_false] at hb hc
    rw [he]
    by_cases hs : p.eckCycles < 24
    · simp only [if_pos hs]
      refine ⟨by simp only [Bool.toNat_true]; omega, ?_⟩
      simp only [Bool.toNat_true]
      exact hlt
    · simp only [if_neg hs]
      refine ⟨by simp only [Bool.toNat_true, List.length_append, List.length_singleton]; omega, ?_⟩
      simp only [Bool.toNat_true, EepromPort.image]
      rcases Nat.lt_or_ge p.bits.length 16 with hl | hl
      · have := imageLength_ge (bytesOfBits (p.bits ++ [p.edi]))
        rw [imageReadCycles_eq]; omega
      · have hlen : imageLength (bytesOfBits (p.bits ++ [p.edi])) = imageLength (bytesOfBits p.bits) :=
          imageLength_congr (bytesOfBits_append _ _ _ (by omega)) (bytesOfBits_append _ _ _ (by omega))
        rw [imageReadCycles_eq, hlen]
        exact hlt

/-- A lawful read that is over has clocked in exactly the bytes that the image calls for. -/
theorem EepromPort.Lawful.over {p : EepromPort} (h : p.Lawful) (ho : p.readOver = true) :
    p.eckCycles = imageReadCycles p.image ∧ p.image.length = imageLength p.image := by
  obtain ⟨hb, hc⟩ := h
  obtain ⟨hk, hle⟩ := p.readOver_iff.mp ho
  rw [hk, Bool.toNat_false] at hb hc
  have he : p.eckCycles = imageReadCycles p.image := by omega
  refine ⟨he, ?_⟩
  rw [imageReadCycles_eq] at he
  rw [EepromPort.image, bytesOfBits_length, ← EepromPort.image]
  omega

/-- The port as a read begins is lawful. -/
theorem EepromPort.afterReset_lawful (edi : Bool) : (EepromPort.afterReset edi).Lawful := by
  cases edi <;> decide

/-- The level of EDI has no part in the law. -/
theorem EepromPort.Lawful.withEdi {p : EepromPort} (h : p.Lawful) (edi : Bool) :
    EepromPort.Lawful { p with edi := edi } := h

/-- R150: an edge of ECK keeps the law of the EEPROM port. -/
theorem eckMoves_imageLaw {s : State} (h : s.ImageLaw) : (eckMoves s).ImageLaw := by
  intro hr
  simp only [eckMoves_frame] at hr
  simp only [eckMoves, State.withCs, Cs.eckEdge, if_pos hr]
  exact EepromPort.eckEdge_lawful (h hr)

/-- R150: a microsecond, with its two edges, keeps it. -/
theorem Cs.tick_lawful {c : Cs} (h : c.load = .reading → c.eeprom.Lawful) :
    c.tick.load = .reading → c.tick.eeprom.Lawful := by
  intro hr
  rw [(Cs.tick_frame c).2.2.2.1] at hr
  simp only [Cs.tick, Cs.eckEdge, if_pos hr]
  exact EepromPort.eckEdge_lawful (EepromPort.eckEdge_lawful (h hr))

end Sys2Proof.Machine
end

