-- ==== Sys2Proof/Laws/MergeTable.lean ====
section
/-! SUPPORT. What the operations of the merge table do: the order oldest first under the law of the table (R62, R78), and the
place of a contribution (R79). -/
namespace Sys2Proof.Machine

/-! ### Age (R11, R62) -/

/-- Of two scans at most CLOSE_LAG behind a third, the older is behind the other. -/
theorem behind_iff_older {a b n : Scan} (ha : Scan.forward a n ≤ 7) (hb : Scan.forward b n ≤ 7) :
    behind a b = decide (Scan.forward a n < Scan.forward b n) := by
  unfold Scan.forward at ha hb ⊢
  unfold behind atOrBehind ahead Scan.forward Scan.tieDistance
  dsimp only
  rw [Bool.eq_iff_iff]
  split_ifs with h0 h1 h2
  · have : a = b := by bv_omega
    simp [this]
  · simp only [Bool.not_true, Bool.false_and, Bool.false_eq_true, decide_eq_true_eq, false_iff]
    bv_omega
  · bv_omega
  · simp only [Bool.not_false, Bool.true_and, bne_iff_ne, ne_eq, decide_eq_true_eq]
    bv_omega

/-- A list of slots with their scans, oldest first: each is behind those that come after it. -/
abbrev OldestFirst (l : List (Slot × Scan)) : Prop := l.Pairwise fun x y => behind y.2 x.2 = true

theorem insertByAge_perm (x : Slot × Scan) (l : List (Slot × Scan)) : (insertByAge x l).Perm (x :: l) := by
  induction l with
  | nil => exact .refl _
  | cons y rest ih =>
    simp only [insertByAge]
    split
    · exact .refl _
    · exact (ih.cons y).trans (.swap x y rest)

/-- A scan that the list does not hold goes to its place, where all are at most CLOSE_LAG behind one scan. -/
theorem insertByAge_oldestFirst {n : Scan} {x : Slot × Scan} {l : List (Slot × Scan)} (hx : Scan.forward x.2 n ≤ 7)
    (hl : ∀ y ∈ l, Scan.forward y.2 n ≤ 7 ∧ y.2 ≠ x.2) (h : OldestFirst l) : OldestFirst (insertByAge x l) := by
  induction l with
  | nil => simp [insertByAge, OldestFirst]
  | cons y rest ih =>
    obtain ⟨hy, hne⟩ := hl y (by simp)
    obtain ⟨hyr, hr⟩ := List.pairwise_cons.mp h
    have hrest : ∀ z ∈ rest, Scan.forward z.2 n ≤ 7 ∧ z.2 ≠ x.2 := fun z hz => hl z (by simp [hz])
    simp only [insertByAge]
    split
    · rename_i hb
      refine List.pairwise_cons.mpr ⟨fun z hz => ?_, h⟩
      rcases List.mem_cons.mp hz with rfl | hz
      · exact hb
      · have hyz := hyr z hz
        rw [behind_iff_older hy hx, decide_eq_true_eq] at hb
        rw [behind_iff_older (hrest z hz).1 hy, decide_eq_true_eq] at hyz
        rw [behind_iff_older (hrest z hz).1 hx, decide_eq_true_eq]
        omega
    · rename_i hb
      refine List.pairwise_cons.mpr ⟨fun z hz => ?_, ih hrest hr⟩
      rcases List.mem_cons.mp ((insertByAge_perm x rest).mem_iff.mp hz) with rfl | hz
      · rw [behind_iff_older hy hx, decide_eq_true_eq] at hb
        rw [behind_iff_older hx hy, decide_eq_true_eq]
        have : Scan.forward y.2 n ≠ Scan.forward z.2 n := by
          intro he; apply hne; simp only [Scan.forward] at he; bv_omega
        omega
      · exact hyr z hz

theorem foldl_insertByAge_perm (l acc : List (Slot × Scan)) :
    (l.foldl (fun m x => insertByAge x m) acc).Perm (l ++ acc) := by
  induction l generalizing acc with
  | nil => exact .refl _
  | cons x rest ih =>
    exact (ih _).trans (((insertByAge_perm x acc).append_left rest).trans List.perm_middle)

theorem foldl_insertByAge_oldestFirst {n : Scan} (l acc : List (Slot × Scan))
    (hl : ∀ y ∈ l ++ acc, Scan.forward y.2 n ≤ 7) (hd : (l ++ acc).Pairwise fun x y => x.2 ≠ y.2) (h : OldestFirst acc) :
    OldestFirst (l.foldl (fun m x => insertByAge x m) acc) := by
  induction l generalizing acc with
  | nil => exact h
  | cons x rest ih =>
    have hp : (rest ++ insertByAge x acc).Perm (x :: (rest ++ acc)) :=
      ((insertByAge_perm x acc).append_left rest).trans List.perm_middle
    obtain ⟨hxd, -⟩ := List.pairwise_cons.mp hd
    refine ih _ (fun y hy => hl y (hp.mem_iff.mp hy)) ((hp.pairwise_iff fun h => Ne.symm h).mpr hd) ?_
    exact insertByAge_oldestFirst (hl x (by simp))
      (fun y hy => ⟨hl y (by simp [hy]), fun e => hxd y (by simp [hy]) e.symm⟩) h

/-! ### The slots oldest first (R62, R78) -/

/-- The OPEN slots whose number and entry satisfy `p`, with their scans. -/
def Mu.chosen (m : Mu) (p : Slot → Entry → Bool) : List (Slot × Scan) :=
  (List.finRange 8).filterMap fun i =>
    match m.slots[i] with
    | some e => if p i e then some (i, e.scan) else none
    | none => none

theorem Mu.mem_chosen (m : Mu) (p : Slot → Entry → Bool) (i : Slot) (n : Scan) :
    (i, n) ∈ m.chosen p ↔ ∃ e, m.slots[i] = some e ∧ p i e = true ∧ e.scan = n := by
  simp only [Mu.chosen, List.mem_filterMap, List.mem_finRange, true_and]
  constructor
  · rintro ⟨j, hj⟩
    cases hs : m.slots[j] with
    | none => simp [hs] at hj
    | some e =>
      by_cases hp : p j e = true
      · simp only [hs, hp, if_true, Option.some.injEq, Prod.mk.injEq] at hj
        obtain ⟨rfl, rfl⟩ := hj
        exact ⟨e, hs, hp, rfl⟩
      · simp [hs, hp] at hj
  · rintro ⟨e, hs, hp, rfl⟩
    exact ⟨i, by simp only [hs]; simp [hp]⟩

theorem Mu.chosen_pairwise_slot (m : Mu) (p : Slot → Entry → Bool) :
    (m.chosen p).Pairwise fun (x y : Slot × Scan) => x.1 ≠ y.1 := by
  refine List.Pairwise.filterMap _ ?_ (List.nodup_finRange 8)
  intro i j hij x hx y hy
  cases hi : m.slots[i] with
  | none => simp [hi] at hx
  | some e =>
    cases hj : m.slots[j] with
    | none => simp [hj] at hy
    | some f =>
      simp only [hi, Option.ite_none_right_eq_some] at hx
      simp only [hj, Option.ite_none_right_eq_some] at hy
      obtain ⟨-, hx⟩ := hx
      obtain ⟨-, hy⟩ := hy
      cases hx; cases hy; exact hij

theorem Mu.oldestFirst_perm (m : Mu) (p : Slot → Entry → Bool) : (m.oldestFirst p).Perm ((m.chosen p).map (·.1)) := by
  have h := (foldl_insertByAge_perm (m.chosen p) []).map (·.1)
  rwa [List.append_nil] at h

/-- The slots taken oldest first are those chosen, each once. -/
theorem Mu.oldestFirst_nodup (m : Mu) (p : Slot → Entry → Bool) : (m.oldestFirst p).Nodup := by
  rw [(m.oldestFirst_perm p).nodup_iff, List.Nodup, List.pairwise_map]
  exact m.chosen_pairwise_slot p

theorem Mu.mem_oldestFirst (m : Mu) (p : Slot → Entry → Bool) (i : Slot) :
    i ∈ m.oldestFirst p ↔ ∃ e, m.slots[i] = some e ∧ p i e = true := by
  rw [(m.oldestFirst_perm p).mem_iff, List.mem_map]
  constructor
  · rintro ⟨⟨j, n⟩, hx, rfl⟩
    obtain ⟨e, h1, h2, -⟩ := (m.mem_chosen p j n).mp hx
    exact ⟨e, h1, h2⟩
  · rintro ⟨e, h1, h2⟩
    exact ⟨(i, e.scan), (m.mem_chosen p i e.scan).mpr ⟨e, h1, h2, rfl⟩, rfl⟩

/-- Under the law of the table each slot's entry is behind those of the slots after it. -/
theorem Mu.oldestFirst_pairwise {m : Mu} {n : Scan} (hage : ∀ i : Slot, ∀ e ∈ m.slots[i], Scan.forward e.scan n ≤ 7)
    (hone : ∀ i j : Slot, ∀ e ∈ m.slots[i], ∀ f ∈ m.slots[j], e.scan = f.scan → i = j) (p : Slot → Entry → Bool) :
    (m.oldestFirst p).Pairwise fun i j => ∀ e ∈ m.slots[i], ∀ f ∈ m.slots[j], behind f.scan e.scan = true := by
  have hmem : ∀ x ∈ m.chosen p, ∃ e, m.slots[x.1] = some e ∧ e.scan = x.2 := fun x hx => by
    obtain ⟨e, h1, -, h2⟩ := (m.mem_chosen p x.1 x.2).mp hx
    exact ⟨e, h1, h2⟩
  have hd : (m.chosen p ++ []).Pairwise fun (x y : Slot × Scan) => x.2 ≠ y.2 := by
    rw [List.append_nil]
    refine (m.chosen_pairwise_slot p).imp_of_mem ?_
    intro x y hx hy hne he
    obtain ⟨e, h1, h2⟩ := hmem x hx
    obtain ⟨f, h3, h4⟩ := hmem y hy
    exact hne (hone _ _ e h1 f h3 (by rw [h2, h4, he]))
  have hs := foldl_insertByAge_oldestFirst (n := n) (m.chosen p) [] (fun y hy => by
    obtain ⟨e, h1, h2⟩ := hmem y (by simpa using hy)
    exact h2 ▸ hage _ e h1) hd .nil
  have hp := foldl_insertByAge_perm (m.chosen p) []
  rw [List.append_nil] at hp
  show (List.map _ _).Pairwise _
  rw [List.pairwise_map]
  refine hs.imp_of_mem ?_
  intro x y hx hy hb e he f hf
  obtain ⟨e', h1, h2⟩ := hmem x (hp.mem_iff.mp hx)
  obtain ⟨f', h3, h4⟩ := hmem y (hp.mem_iff.mp hy)
  have he' : some e = some e' := (Option.mem_def.mp he).symm.trans h1
  have hf' : some f = some f' := (Option.mem_def.mp hf).symm.trans h3
  cases he'; cases hf'
  rwa [h2, h4]

/-- The entries of the slots taken oldest first are theirs, each once, and each behind those after it. -/
theorem Mu.entries_of_oldestFirst {m : Mu} {n : Scan} (hage : ∀ i : Slot, ∀ e ∈ m.slots[i], Scan.forward e.scan n ≤ 7)
    (hone : ∀ i j : Slot, ∀ e ∈ m.slots[i], ∀ f ∈ m.slots[j], e.scan = f.scan → i = j) (p : Slot → Entry → Bool) :
    let entries := (m.oldestFirst p).filterMap fun i => m.slots[i]
    entries.Nodup ∧ (∀ e, e ∈ entries ↔ ∃ i : Slot, m.slots[i] = some e ∧ p i e = true)
    ∧ entries.Pairwise fun e f => behind f.scan e.scan = true := by
  have hp : ((m.oldestFirst p).filterMap fun i => m.slots[i]).Pairwise fun e f => behind f.scan e.scan = true :=
    (Mu.oldestFirst_pairwise hage hone p).filterMap _ fun _ _ h e he f hf => h e he f hf
  refine ⟨hp.imp fun {e f} h he => ?_, fun e => ?_, hp⟩
  · subst he; simp [behind] at h
  · simp only [List.mem_filterMap, Mu.mem_oldestFirst]
    constructor
    · rintro ⟨i, ⟨f, hf, h⟩, he⟩
      rw [hf, Option.some.injEq] at he
      exact ⟨i, he ▸ hf, he ▸ h⟩
    · rintro ⟨i, he, h⟩
      exact ⟨i, ⟨e, he, h⟩, he⟩

/-! ### The place of a contribution (R70, R79) -/

theorem inSet_insertId (ids : NodeSet) (j k : NodeId) : inSet (insertId ids k) j = (decide (j = k) || inSet ids j) := by
  simp only [inSet, insertId, single, BitVec.getLsbD_or, BitVec.getLsbD_shiftLeft]
  by_cases h : j = k
  · subst h; simp
  · have : j.val ≠ k.val := fun e => h (Fin.ext e)
    rcases Nat.lt_or_ge j.val k.val with hl | hl
    · simp [h, hl]
    · simp [h, show ¬j.val < k.val by omega, show j.val - k.val ≠ 0 by omega, BitVec.getLsbD_one]

theorem insertContribution_perm (c : Contribution) (l : List Contribution) : (insertContribution c l).Perm (c :: l) := by
  induction l with
  | nil => exact .refl _
  | cons d rest ih =>
    simp only [insertContribution]
    split
    · exact .refl _
    · exact (ih.cons d).trans (.swap c d rest)

/-- The ids are in ascending order exactly when each is below those after it. -/
theorem ascendingIds_iff (l : List NodeId) : ascendingIds l = true ↔ l.Pairwise (· < ·) := by
  induction l with
  | nil => simp [ascendingIds]
  | cons a rest ih =>
    cases rest with
    | nil => simp [ascendingIds]
    | cons b rest =>
      simp only [ascendingIds, Bool.and_eq_true, decide_eq_true_eq, ih]
      constructor
      · rintro ⟨hab, h⟩
        refine List.pairwise_cons.mpr ⟨fun c hc => ?_, h⟩
        rcases List.mem_cons.mp hc with rfl | hc
        · exact hab
        · exact lt_trans hab ((List.pairwise_cons.mp h).1 c hc)
      · intro h
        exact ⟨(List.pairwise_cons.mp h).1 b (by simp), (List.pairwise_cons.mp h).2⟩

/-- A contribution of a node that the list does not hold goes to its place. -/
theorem insertContribution_ascending {c : Contribution} {l : List Contribution}
    (h : ascendingIds (l.map (·.node)) = true) (hc : ∀ d ∈ l, d.node ≠ c.node) :
    ascendingIds ((insertContribution c l).map (·.node)) = true := by
  rw [ascendingIds_iff, List.pairwise_map] at h ⊢
  induction l with
  | nil => simp [insertContribution]
  | cons d rest ih =>
    obtain ⟨hd, hr⟩ := List.pairwise_cons.mp h
    simp only [insertContribution]
    split
    · rename_i hlt
      refine List.pairwise_cons.mpr ⟨fun x hx => ?_, h⟩
      rcases List.mem_cons.mp hx with rfl | hx
      · exact hlt
      · exact lt_trans hlt (hd x hx)
    · rename_i hle
      refine List.pairwise_cons.mpr ⟨fun x hx => ?_, ih hr fun x hx => hc x (by simp [hx])⟩
      rcases List.mem_cons.mp ((insertContribution_perm c rest).mem_iff.mp hx) with rfl | hx
      · exact lt_of_le_of_ne (not_lt.mp hle) (hc d (by simp))
      · exact hd x hx

end Sys2Proof.Machine
end

