-- ==== Sys2Proof/Tests/Slice0.lean ====
section
/-! SUPPORT. The model's own tests: ill-formed commands refused, the worked examples of the manual, single steps on small
states, and for every statement with hypotheses a state and operands that meet them. -/
namespace Sys2Proof.Tests

set_option Elab.async false

open Sys2Proof Sys2Proof.Machine

/-! ### Well-formed and ill-formed commands -/

theorem test_unknownCommand_of_known_code_refused :
    (Instr.unknownCommand 1).wellFormed = false ∧ (Instr.unknownCommand 9).wellFormed = false := by decide
theorem test_unknownCommand_of_unknown_code_taken :
    (Instr.unknownCommand 0).wellFormed = true ∧ (Instr.unknownCommand 10).wellFormed = true := by decide
theorem test_registerWrite_to_word_with_own_row_refused :
    (Instr.registerWrite 0x02 1).wellFormed = false ∧ (Instr.registerWrite 0x14 1).wellFormed = false := by decide
theorem test_registerWrite_to_plain_word_taken :
    (Instr.registerWrite 0x06 1).wellFormed = true ∧ (Instr.registerWrite 0x7F 1).wellFormed = true := by decide
theorem test_collision_beyond_longest_frame_refused :
    (Instr.collision 176).wellFormed = false ∧ (Instr.collision 175).wellFormed = true := by decide
theorem test_burst_with_26_levels_refused :
    (Instr.captureComplete (List.replicate 26 (Vector.replicate 4 true))).wellFormed = false
    ∧ (Instr.captureComplete (List.replicate 25 (Vector.replicate 4 true))).wellFormed = true := by decide
theorem test_no_word_spells_a_command : decodeTableWord 8 0 = none ∧ decodeTableWord 32 9 = none := by decide
theorem test_withFetchWord_changes_nothing : State.reset.withFetchWord 8 3 = State.reset := rfl

/-! ### Small states: node 5 with the default parameters, alone or with the peers 2 and 9 -/

/-- The default set with NODE_ID 5. -/
def set5 : ParamSet := paramDefaults.set 0 5

/-- Node 5 in CONFIGURED. -/
def configured : State := { State.reset with
  cs := { State.reset.cs with written := set5, committed := set5, digest := digestOf set5, load := .committed }
  bac := { State.reset.bac with line := .on 4 false, receiver := .ready, transmitter := .idle }
  acu := { State.reset.acu with state := .configured } }

/-- Node 5 in LISTENING, GATE high. -/
def listening : State := { configured with
  stu := { configured.stu with gate := .observing }
  acu := { configured.acu with state := .listening, listen := .running 5 } }

/-- A member table with the given entries. -/
def tableOf (l : List (NodeId × Membership)) : Vector Member 32 :=
  Vector.ofFn fun k => match l.find? (·.1 == k) with | some e => { membership := e.2 } | none => {}

/-- The state with the given table. -/
def withTable (l : List (NodeId × Membership)) (s : State) : State := { s with ru := { s.ru with members := tableOf l } }

/-- An entry that expects 2, 5 and 9 and holds the contributions of `present`. -/
def entryOf (scan : Scan) (present : List NodeId) : Entry :=
  ⟨scan, 0x224, present.foldl insertId 0, present.map fun k => { node := k, samples := [1, 2, 3, 4] }, 100⟩

/-- Node 5, a member with 2 and 9 at index $0002FF, in the wait phase, GATE low (chapter 4, Scans merged at one node). -/
def member : State := withTable [(2, .active 0x100), (5, .active 0x100), (9, .active 0x100)] { configured with
  stu := { configured.stu with gate := .released .wait, gateHigh := false, period := .expired, formed := true,
                               index := 0x2FF, startSerial := 7, time := 5000, stall := .running 0 }
  mu := { configured.mu with
    slots := #v[some (entryOf 0x2FF []), some (entryOf 0x2FD [2, 5]), some (entryOf 0x2FE [2, 5]), none, none, none,
                none, none]
    current := some 0 }
  acu := { configured.acu with state := .member } }

/-- The same node holding the gate, its capture being clocked. -/
def capturing : State := { member with
  stu := { member.stu with gate := .holding, formed := false, stall := .stopped }
  spc := { member.spc with capture := .clocking, tag := some ⟨.boundary, 7, none⟩, ready := Vector.replicate 4 true } }

/-- Node 5 in JOINING from $000300, nothing OPEN. -/
def joining : State := withTable [(2, .active 0x100), (5, .pending 0x300), (9, .active 0x100)] { member with
  mu := configured.mu
  acu := { configured.acu with state := .joining, joinScan := some 0x300 } }

/-- Node 5 in LEAVING until $000300. -/
def leaving : State := withTable [(2, .active 0x100), (5, .departing 0x100 0x300), (9, .active 0x100)] { member with
  acu := { configured.acu with state := .leaving, leaveScan := some 0x300 } }

/-- The state with a frame in the inbound buffer. -/
def inbox (f : Frame) (s : State) : State := { s with bac := { s.bac with inbound := [f] } }

/-- A ROSTER of node 9 at the given scan with the given list. -/
def roster9 (scan : Scan) (join leave : Bool) (announced : Scan) (list : List RosterEntry) : Roster :=
  ⟨9, join, leave, scan, announced, digestOf set5, list⟩

/-- A SCAN frame of node `k` for a scan, four channels. -/
def scanOf (k : NodeId) (scan : Scan) : ScanFrame := ⟨scan, { node := k, samples := [1, 2, 3, 4] }⟩

/-- The state with the STU replaced by a function of it. -/
def onStu (f : Stu → Stu) (s : State) : State := { s with stu := f s.stu }
/-- The state with the ACU replaced by a function of it. -/
def onAcu (f : Acu → Acu) (s : State) : State := { s with acu := f s.acu }
/-- The state with the BAC replaced by a function of it. -/
def onBac (f : Bac → Bac) (s : State) : State := { s with bac := f s.bac }
/-- The state with the SPC replaced by a function of it. -/
def onSpc (f : Spc → Spc) (s : State) : State := { s with spc := f s.spc }
/-- The state with the HC replaced by a function of it. -/
def onHc (f : Hc → Hc) (s : State) : State := { s with hc := f s.hc }
/-- The state with the CS replaced by a function of it. -/
def onCs (f : Cs → Cs) (s : State) : State := { s with cs := f s.cs }
/-- The state with the RCU replaced by a function of it. -/
def onRcu (f : Rcu → Rcu) (s : State) : State := { s with rcu := f s.rcu }
/-- The state with the HPU replaced by a function of it. -/
def onHpu (f : Hpu → Hpu) (s : State) : State := { s with hpu := f s.hpu }

/-- What `exec` answers, when it answers a next state. -/
def after (c : Instr) (s : State) : Option State :=
  match exec c s with
  | .next t => some t
  | _ => none

/-- Does the result of the checks of a frame equal the given frame? -/
def takenAs (f : Frame) : Except RxError Frame → Bool
  | .ok g => decide (g = f)
  | .error _ => false

/-- Do the checks of a frame fail as given? -/
def failsAs (e : RxError) : Except RxError Frame → Bool
  | .ok _ => false
  | .error x => decide (x = e)

/-- Do the checks of an image fail as given? -/
def imageFailsAs (e : ErrorCode) : Except ErrorCode (List (Byte × BitVec 16)) → Bool
  | .ok _ => false
  | .error x => decide (x = e)

/-- The records of an image, none when its checks fail. -/
def recordsOf : Except ErrorCode (List (Byte × BitVec 16)) → List (Byte × BitVec 16)
  | .ok records => records
  | .error _ => []

/-- The state a step answers. -/
def stepped (s : State) : Option State :=
  match step s with
  | .next t => some t
  | _ => none

/-! ### The laws hold of these states -/

theorem test_configured_lawful : configured.ArrayLaw ∧ configured.HoldControlLaw ∧ configured.BusLaw :=
  ⟨⟨by decide +kernel, by decide +kernel, by decide +kernel, by decide +kernel, by decide +kernel, by decide +kernel,
    by decide +kernel⟩,
    by decide +kernel, by decide +kernel⟩
theorem test_listening_lawful : listening.ArrayLaw ∧ listening.HoldControlLaw ∧ listening.HoldLaw :=
  ⟨⟨by decide +kernel, by decide +kernel, by decide +kernel, by decide +kernel, by decide +kernel, by decide +kernel,
    by decide +kernel⟩,
    by decide +kernel, by decide +kernel⟩
theorem test_member_lawful : member.ArrayLaw ∧ member.HoldControlLaw ∧ member.HoldLaw ∧ member.BusLaw :=
  ⟨⟨by decide +kernel, by decide +kernel, by decide +kernel, by decide +kernel, by decide +kernel, by decide +kernel,
    by decide +kernel⟩,
    by decide +kernel, by decide +kernel, by decide +kernel⟩
theorem test_joining_lawful : joining.ArrayLaw ∧ joining.HoldControlLaw :=
  ⟨⟨by decide +kernel, by decide +kernel, by decide +kernel, by decide +kernel, by decide +kernel, by decide +kernel,
    by decide +kernel⟩,
    by decide +kernel⟩
theorem test_leaving_lawful : leaving.ArrayLaw ∧ leaving.HoldControlLaw :=
  ⟨⟨by decide +kernel, by decide +kernel, by decide +kernel, by decide +kernel, by decide +kernel, by decide +kernel,
    by decide +kernel⟩,
    by decide +kernel⟩

/-! ### Worked examples of the manual -/

/-- R115: the nine bytes $31 to $39 give $29B1. -/
theorem test_crc_of_nine_digits :
    crc16 [0x31, 0x32, 0x33, 0x34, 0x35, 0x36, 0x37, 0x38, 0x39] = 0x29B1 := by decide +kernel

/-- R157: the twelve bytes of the defaults. -/
theorem test_digest_of_defaults :
    digestOf paramDefaults = crc16 [0x00, 0x18, 0x00, 0x04, 0x00, 0x02, 0x00, 0x03, 0x00, 0x20, 0x00, 0x04] := by
  decide +kernel

/-- R152: the two examples of precedence. -/
theorem test_validation_precedence :
    validate ((paramDefaults.set 0 40).set 14 30) = some (.range .nodeId)
    ∧ validate ((paramDefaults.set 14 30).set 7 9) = some (.range .closeLag)
    ∧ validate (paramDefaults.set 14 30) = some (.cross .queueHigh)
    ∧ validate ((paramDefaults.set 18 20).set 19 16) = some (.cross .win1Range)
    ∧ validate ((paramDefaults.set 18 20).set 19 12) = none := by decide +kernel

/-- R98 and "A projection of one record": p = 8, n = 16. -/
def projected : Record where
  scan := 0x1A40
  kind := .partialClose
  expected := 0x3C
  present := 0x2C
  openTime := 1
  closeTime := 2
  contributions := [{ node := 2, samples := [41500, -350, 0, 1200] }, { node := 3, fault := true },
    { node := 5, ovr := true, samples := [7010, -8388608] }]

theorem test_projection_of_one_record :
    (List.range 32).map (projectionSample projected 8 16)
      = [some 41500, some (-350), some 0, some 1200, none, none, none, none, none, none, none, none, some 7010,
         some (-8388608)] ++ List.replicate 18 none := by decide +kernel

/-- "Positions in a record": 15 words, the sets, node 5's channels at 13 and 14, and 0 beyond. -/
theorem test_positions_in_a_record :
    projected.lengthInWords = 15 ∧ projected.wordAt 0 = 0x0D001A40 ∧ projected.wordAt 1 = 0x3C
    ∧ projected.wordAt 2 = 0x2C ∧ projected.wordAt 3 = 0x0F000104 ∧ projected.wordAt 6 = 0x00040002
    ∧ projected.wordAt 11 = 0x203 ∧ projected.wordAt 12 = 0x20405 ∧ projected.wordAt 13 = 7010
    ∧ projected.wordAt 14 = 0xFF800000 ∧ projected.wordAt 15 = 0 := by decide +kernel

/-- R142 and "A calibration evaluated": the two channels' sums, the second failing in its gain. -/
theorem test_calibration_evaluated :
    evaluateChannel 24 ⟨-4000, 128000000⟩ = .ok ⟨-250, 68030⟩
    ∧ evaluateChannel 24 ⟨1600, 128000000⟩ = .ok ⟨100, 68033⟩
    ∧ evaluateChannel 24 ⟨1600, 48000000⟩ = .error .gain := by
  refine ⟨?_, ?_, ?_⟩ <;> rfl

/-- The same section: two corrected values under offset −250 and G = 68,030. -/
theorem test_correction_and_saturation :
    correctedValue 24 ⟨-250, 68030⟩ 4000000 = (4152481, false)
    ∧ correctedValue 24 ⟨-250, 68030⟩ 8200000 = (8388607, true)
    ∧ roundHalfAway 5 2 = 3 ∧ roundHalfAway (-5) 2 = -3 := by decide +kernel

/-- R135: offset binary. -/
theorem test_offset_binary :
    codedValue 16 1 0 = -32768 ∧ codedValue 16 1 0xFFFF = 32767 ∧ codedValue 16 0 0xFFFF = -1 := by decide +kernel

/-- "A collision and its backoff": 20 slots for node 5, none for node 9. -/
theorem test_backoff_slots : backoffSlots 5 1 = 20 ∧ backoffSlots 9 1 = 0 := by decide

/-- R11: the distances, and the tie broken by ids. -/
theorem test_scan_comparison :
    ahead 0xFFFFFF 0 = true ∧ ahead 0 0xFFFFFF = false ∧ aheadOfNode 2 5 0 0x800000 = true
    ∧ aheadOfNode 5 2 0 0x800000 = false ∧ ahead 5 5 = false := by decide +kernel

/-- R117: one frame for each outcome, and a good HOLD. -/
theorem test_receive_checks :
    failsAs .fragment (checkFrame 24 [1, 2, 3, 4, 5, 6]) = true
    ∧ failsAs .oversize (checkFrame 24 (List.replicate 176 0)) = true
    ∧ failsAs .crcError (checkFrame 24 (List.replicate 7 0)) = true
    ∧ failsAs .malformed (checkFrame 24 (Frame.roster (roster9 0 false false 0 [⟨5, .active, 0⟩, ⟨2, .active, 0⟩])).encode)
        = true
    ∧ takenAs (.hold 9 100) (checkFrame 24 (Frame.hold 9 100).encode) = true
    ∧ (Frame.hold 9 100).encode.take 5 = [0x48, 9, 7, 0, 100] := by decide +kernel

/-- A SCAN frame of three 16-bit samples. -/
def scan16 : Frame := .scan ⟨0x123456, { node := 5, ovr := true, samples := [-32768, 32767, -1] }⟩

/-- R174: it is sent sign-extended and taken back. -/
theorem test_scan_frame_round_trip :
    scan16.wellFormed 16 = true ∧ scan16.encode.length = 19 ∧ takenAs scan16 (checkFrame 16 scan16.encode) = true := by
  decide +kernel

/-- R151: the image of node 3, and its failing neighbours. -/
theorem test_image_checks :
    imageFailsAs .noImage (checkImage []) = true
    ∧ imageFailsAs .badHeader (checkImage [0]) = true
    ∧ imageFailsAs .badLength (checkImage [0xA5, 31]) = true
    ∧ imageFailsAs .badLength (checkImage [0xA5, 0]) = true
    ∧ imageFailsAs .badChecksum (checkImage [0xA5, 1, 1, 0, 3, 0, 0]) = true := by decide +kernel

/-- The bytes of "An image loaded from the EEPROM". -/
def image3 : List Byte :=
  let covered : List Byte := [0xA5, 3, 2, 0, 3, 8, 0, 4, 2, 0, 2]
  covered ++ bytes16 (crc16 covered)

theorem test_image_of_node_three :
    image3.length = 13
    ∧ (loadedSet (recordsOf (checkImage image3))).value .nodeId = 0
    ∧ (loadedSet (recordsOf (checkImage image3))).value .channels = 2
    ∧ (loadedSet (recordsOf (checkImage image3))).value .closeLag = 4
    ∧ validate (loadedSet (recordsOf (checkImage image3))) = none := by decide +kernel

/-! ### Single steps -/

/-- Chapter 4: the boundary that starts $000300 closes $000302's neighbour $0002FD PARTIAL and opens slot 1. -/
theorem test_boundary_of_scans_merged :
    (after (.boundary {}) member).map (fun t => (t.stu.index, t.mu.current, t.rcu.queue.map (·.scan)))
      = some (0x300, some 1, [0x2FD])
    ∧ (after (.boundary {}) member).map (fun t => (t.rcu.queue.map (·.kind), t.ru.reports, t.counter .recordsPartial))
      = some ([.partialClose], [⟨0x224, 0x24⟩], 1) := by decide +kernel

/-- Chapter 4: the SCAN frame of 9 for $0002FE completes its entry. -/
theorem test_scan_frame_completes_entry :
    (after .scanFrameTaken (inbox (.scan (scanOf 9 0x2FE)) member)).map (fun t => (t.mu.slots[(2 : Slot)].isSome,
      t.rcu.queue.map (·.kind), t.counter .contribAccepted, t.counter .recordsComplete, t.eventSet .recordAvailable))
      = some (false, [.complete], 1, 1, true) := by decide +kernel

/-- Node 5 at $000302 with a SCAN frame of 9 for $000310 in the buffer. -/
def realigning : State := { inbox (.scan (scanOf 9 0x310)) member with
  stu := { member.stu with index := 0x302 }
  mu := { member.mu with
    slots := #v[some (entryOf 0x302 [5]), some (entryOf 0x300 [2, 5]), some (entryOf 0x301 [5]), none, none, none, none,
                none] } }

/-- Chapter 4, A realign in the same table: delta 14 closes two entries and relabels the current one. -/
theorem test_realign_in_same_table :
    (after .scanFrameTaken realigning).map (fun t => (t.stu.index, t.mu.slots[(0 : Slot)].map (fun e => (e.scan, e.present))))
      = some (0x310, some (0x310, 0x220))
    ∧ (after .scanFrameTaken realigning).map (fun t => (t.mu.slots[(1 : Slot)].isSome, t.mu.slots[(2 : Slot)].isSome))
      = some (false, false)
    ∧ (after .scanFrameTaken realigning).map (fun t => t.rcu.queue.map fun r => (r.scan, r.kind, r.firstMissing))
      = some [(0x300, .realigned, some 9), (0x301, .realigned, some 2)]
    ∧ (after .scanFrameTaken realigning).map (fun t => (t.counter .realigns, t.eventSet .realigned))
      = some (1, true) := by decide +kernel

/-- Chapter 10, A counter read without loss: 1,002 less 1,000 in DECREMENT. -/
theorem test_stat_value_decrement :
    (after (.statValueWrite 1000) (onHpu (fun h => { h with
      statSel := 14, statMode := .decrement, counters := h.counters.set 14 1002 }) configured)).map
      (fun t => t.counter .contribLate) = some 2 := by decide +kernel

/-- Chapter 9, A configuration loaded through the port: a write to selector 25. -/
theorem test_param_write_to_no_parameter :
    (after (.paramValueWrite 1) (onCs (fun c => { c with selector := 25 }) State.reset)).map
      (fun t => (t.hpu.result.word, t.cs.error)) = some (0x1905FE03, .none) := by decide +kernel

/-- R163: the STATE word of a member in the wait phase with an empty queue. -/
theorem test_state_word_of_member : member.stateWord = 0x00800065 := by decide +kernel

/-- A soft reset is taken at once from CONFIGURED. -/
theorem test_soft_reset_at_once :
    (after (.softReset true) configured).map (fun t => (t.acu.state, t.cs.load, t.hpu.result.code, t.hpu.transaction))
      = some (.loading, .reading, .accepted, .done) := by decide +kernel

/-- With an empty queue the block counts a microsecond, or queues what is due. -/
theorem test_empty_queue_steps :
    (stepped State.reset).map (fun t => (t.stu.time, t.pending)) = some (1, [])
    ∧ (stepped (onStu (fun u => { u with guard := .running 2 }) listening)).map (·.pending) = some [.guardExpiry] := by
  decide +kernel

/-! ### For each statement with hypotheses, a state and operands that meet them, clause by clause -/

/-- The law of membership, decided part by part. -/
def lawful (s : State) : Bool :=
  decide s.ConfigLaw && decide s.SelfLaw && decide s.GateLaw && decide s.MergeLaw && decide s.SampleLaw
    && decide s.InboundLaw && decide s.ImageLaw

theorem arrayLaw_of_lawful {s : State} (h : lawful s = true) : s.ArrayLaw := by
  simp only [lawful, Bool.and_eq_true, decide_eq_true_eq] at h
  exact ⟨h.1.1.1.1.1.1, h.1.1.1.1.1.2, h.1.1.1.1.2, h.1.1.1.2, h.1.1.2, h.1.2, h.2⟩

/-- Node 5 as it waits on the bus with the given item of work, the line quiet. -/
def waitingWith (hold roster : Option Item) (scans : List ScanItem) : State := onBac (fun b => { b with
  transmitter := .accessWait, holdItem := hold, rosterItem := roster, scanItems := scans }) member

/-- Node 5 sending a frame. -/
def sendingFrame (f : Frame) : State := onBac (fun b => { b with
  transmitter := .sending, receiver := .blind, line := .on 4 true, inTx := some ⟨{}, f, 0, false, false⟩ }) member

/-- Node 5 jamming after a collision of the given frame. -/
def jammingFrame (f : Frame) (givenUp : Bool) : State := onBac (fun b => { b with
  transmitter := .jamming, receiver := .blind, line := .on 4 true, inTx := some ⟨⟨1, false⟩, f, 2, givenUp, false⟩ }) member

/-- Node 5 receiving. -/
def receiving : State := onBac (fun b => { b with receiver := .receiving, line := .on 4 true }) member

/-- Four SCAN items, as many as the list holds. -/
def fourItems : List ScanItem := List.replicate 4 ⟨{}, scanOf 5 0x2FE⟩

/-- The state with a calibration in progress at the given count. -/
def calibratingAt (n : Nat) (s : State) : State :=
  onSpc (fun x => { x with phase := phaseAtCount n, count := n, insel := inselAtCount n }) s

/-- Node 5 in CONFIGURED, a calibration under solo pacing due its next solo boundary. -/
def soloAt (n : Nat) : State := calibratingAt n (onStu (fun u => { u with solo := true, period := .expired }) configured)

/-- The capture of `capturing`, waiting for its channels. -/
def waiting : State := onSpc (fun x => { x with capture := .waiting, ready := #v[true, false, true, true] }) capturing

/-- Node 5 holding the gate with a running period. -/
def holdingGate : State := onStu (fun u => { u with gate := .holding, period := .running 0 }) member

/-- Node 5 holding itself back for its backlog. -/
def heldBack : State := { holdingGate with
  rcu := { holdingGate.rcu with backlog := true, queue := [projected] }
  hc := { holdingGate.hc with backlogReason := true, selfHold := true, requested := 1000, renewal := .running 0 } }

/-- Node 5 holding itself back for FREEZE. -/
def frozen : State := onHc (fun h => { h with
  freezeReason := true, selfHold := true, requested := 1000, renewal := .running 0 }) holdingGate

/-- The state in the guard phase with the guard timer running. -/
def guarded (s : State) : State := onStu (fun u => { u with gate := .released .guard, guard := .running 2 }) s

/-- The state observing, GATE low, the guard timer running, the take request as given. -/
def observing (take : TakeRequest) (s : State) : State :=
  onStu (fun u => { u with gate := .observing, gateHigh := false, guard := .running 2, take := take }) s

/-- Node 5 in LISTENING with GATE low. -/
def listeningLow : State := onStu (fun u => { u with gateHigh := false }) listening

/-- Node 5 in LEAVING, its drain on, with the given merge slots. -/
def draining (slots : Vector (Option Entry) 8) : State := { leaving with
  ru := { leaving.ru with members := tableOf [(2, .active 0x100), (9, .active 0x100)] }
  acu := { leaving.acu with drain := true }
  mu := { leaving.mu with slots := slots, current := none } }

/-- One slot OPEN, at the deadline of scan $000300. -/
def lastSlot : Vector (Option Entry) 8 := #v[none, some (entryOf 0x2FD [2, 5]), none, none, none, none, none, none]

/-- The empty buffer has no frame at its head. -/
theorem no_head {l : List Frame} (h : l = []) (f : Frame) (rest : List Frame) : l ≠ f :: rest := by simp [h]

/-- The state with pin changes waiting. -/
def withPins (l : List PinEvent) (s : State) : State := { s with pins := l }

theorem test_witness_StepWithEmptyQueue :
    (State.reset.pending = [] ∧ State.reset.pins = [] ∧ State.reset.nextDue = none)
    ∧ ((guarded member).pending = [] ∧ (guarded member).pins = [] ∧ (guarded member).nextDue = some .guardExpiry)
    ∧ ((withPins [.hselnFall] member).pending = [] ∧ (withPins [.hselnFall] member).pins = .hselnFall :: []) := by
  decide +kernel

/-- States in which an event of the part's own falls due after `us` µs, with that event. -/
def dueAfter : List (Nat × (Nat → State) × Instr) := [
  (2, fun us => onStu (fun u => { u with guard := .running us }) listening, .guardExpiry),
  (1000, fun us => onStu (fun u => { u with period := .running us }) listening, .scanPeriodExpiry),
  (50000, fun us => onStu (fun u => { u with stall := .running us }) member, .stallTimerExpiry),
  (200000, fun us => onAcu (fun a => { a with listen := .running us }) listening, .listenTimerExpiry false),
  (50000, fun us => onHc (fun h => { h with renewal := .running us }) listening, .renewalExpiry),
  (1, fun us => onSpc (fun x => { x with capture := .strobe, elapsed := us }) listening, .convertPulseEnd),
  (800, fun us => onSpc (fun x => { x with capture := .waiting, elapsed := us }) listening, .sampleTimeout),
  (100, fun us => setMember 9 { hold := 1, holdPhase := us } listening, .holdCountdownExpiry 9),
  (1, fun us => onBac (fun b => { b with receiver := .seeking, idleTime := us }) listening, .lineIdle),
  (18, fun us => onBac (fun b => { b with phaseTime := us }) (sendingFrame (.hold 5 7)), .txSuccess),
  (8, fun us => onBac (fun b => { b with phaseTime := us }) (jammingFrame (.hold 5 7) false), .jamEnd false),
  (320, fun us => onBac (fun b => { b with transmitter := .backoff, backoff := 20, phaseTime := us }) listening,
    .backoffEnd),
  (12, fun us => onBac (fun b => { b with transmitter := .accessWait, idleTime := us }) listening, .accessWaitComplete)]

/-- Each falls due at its time and one microsecond before it does not. -/
theorem test_due_events_at_their_times :
    (dueAfter.all fun x => decide ((x.2.1 x.1).nextDue = some x.2.2 ∧ (x.2.1 (x.1 - 1)).nextDue = none)) = true := by
  decide +kernel

/-- R133: 16 bits take 2 µs of clocking, at 8 pulses a µs, and 18 bits a little more; after the W-th pulse the capture is
complete. -/
theorem test_pulses_of_a_microsecond :
    let clocking := fun (w : Word) (n : Nat) => onCs (fun c => { c with committed := c.committed.set 2 w })
      (onSpc (fun x => { x with
        capture := .clocking, clockTime := n, clocked := List.replicate (8 * n) (Vector.replicate 4 false) }) listening)
    let after1 := fun s : State => (stepped s).map fun t => (t.spc.clocked.length, t.nextDue, t.sclkRuns)
    after1 (clocking 16 0) = some (8, none, true)
    ∧ after1 (clocking 16 1) = some (16, some (.captureComplete []), false)
    ∧ after1 (clocking 18 1) = some (16, none, true)
    ∧ after1 (clocking 18 2) = some (18, some (.captureComplete []), false) := by decide +kernel

theorem test_due_handovers :
    (onBac (fun b => { b with resetPending := true }) member).nextDue = some (.softResetTakesEffect false)
    ∧ (onStu (fun u => { u with gateHigh := true }) member).nextDue = some (.boundary {})
    ∧ ({ member with ru := { member.ru with reports := [⟨0x224, 0x24⟩] } } : State).nextDue = some .missReport
    ∧ (inbox (.scan (scanOf 9 0x2FE)) member).nextDue = some .scanFrameTaken
    ∧ (inbox (.hold 9 1) member).nextDue = some .holdTaken
    ∧ (soloAt 0).nextDue = some .soloBoundary := by decide +kernel

theorem test_witness_PinResetResetsEveryUnit :
    (onHpu (fun h => { h with resetnLow := true }) member).hpu.resetnLow = true ∧ isTransaction .join = true := by
  decide +kernel

theorem test_witness_SoftResetAtOnceOrPending :
    (member.hpu.resetnLow = false ∧ member.bac.inTx = none)
    ∧ (let s := sendingFrame (.hold 5 0)
       s.hpu.resetnLow = false ∧ s.bac.inTx.isSome = true ∧ s.bac.resetPending = false)
    ∧ (let s := onBac (fun b => { b with resetPending := true }) (sendingFrame (.hold 5 0))
       s.hpu.resetnLow = false ∧ s.bac.inTx.isSome = true ∧ s.bac.resetPending = true)
    ∧ (let s := onBac (fun b => { b with resetPending := true }) member
       s.bac.resetPending = true ∧ s.bac.inTx = none) := by
  refine ⟨?_, ?_, ?_, ?_⟩ <;> decide +kernel

/-- Node 5 in LEAVING until $000302, with $0002FE and the current $0002FF OPEN. -/
def leavingLater : State := withTable [(2, .active 0x100), (5, .departing 0x100 0x302), (9, .active 0x100)]
  (onAcu (fun a => { a with leaveScan := some 0x302 }) leaving)

theorem test_witness_BoundaryStartsScan :
    (member.SampleLaw ∧ member.stu.takesBoundary = true ∧ member.acu.state = .member)
    ∧ (joining.SampleLaw ∧ joining.stu.takesBoundary = true ∧ joining.acu.state = .joining
      ∧ joining.acu.refusalPending = false)
    ∧ (calibratingAt 4 member).SampleLaw
    ∧ (leavingLater.SampleLaw ∧ leavingLater.stu.takesBoundary = true ∧ leavingLater.acu.state = .leaving
      ∧ leavingLater.acu.drain = false ∧ leavingLater.acu.leaveScan = some 0x302
      ∧ atOrBehind (leavingLater.stu.index + 1) 0x302 = false)
    ∧ (listeningLow.SampleLaw ∧ listeningLow.stu.takesBoundary = true ∧ listeningLow.acu.state = .listening
      ∧ listeningLow.acu.admission = none)
    ∧ (let s := onAcu (fun a => { a with refusalPending := true }) joining
       s.SampleLaw ∧ s.stu.takesBoundary = true ∧ s.acu.state = .joining ∧ s.acu.refusalPending = true)
    ∧ (let s := calibratingAt 5 (onSpc (fun x => { x with capture := .waiting, tag := some ⟨.boundary, 7, some 5⟩ }) member)
       s.SampleLaw ∧ s.stu.takesBoundary = true ∧ s.acu.state = .member) := by
  refine ⟨?_, ?_, ?_, ?_, ?_, ?_, ?_⟩ <;> decide +kernel

/-- The boundary after count 4 carries count 5 in ZERO_ACCUM; one that cuts a summed capture ends the calibration, FAIL
FAULT of the lowest channel not ready (R140, R143). -/
theorem test_boundary_in_a_calibration :
    (after (.boundary {}) (calibratingAt 4 member)).map (fun t => (t.spc.count, t.spc.phase, t.spc.insel))
      = some (5, .zeroAccum, .zero)
    ∧ (after (.boundary {}) (calibratingAt 5 (onSpc (fun x => { x with
        capture := .waiting, ready := #v[true, false, true, true], tag := some ⟨.boundary, 7, some 5⟩ }) member))).map
        (fun t => (t.spc.result, t.spc.count, t.spc.insel, t.counter .sampleFaults, t.eventSet .calDone))
      = some (.fail .fault 1, 0, .normal, 1, true) := by decide +kernel

theorem test_witness_BoundaryClosesAndOpensEntries :
    (member.ArrayLaw ∧ member.stu.takesBoundary = true ∧ member.acu.state = .member ∧ member.mu.suspended = false)
    ∧ (let s : State := { member with mu := { member.mu with suspended := true } }
       s.ArrayLaw ∧ s.stu.takesBoundary = true ∧ s.acu.state = .member ∧ s.mu.suspended = true)
    ∧ (leavingLater.ArrayLaw ∧ leavingLater.stu.takesBoundary = true ∧ leavingLater.acu.state = .leaving
      ∧ leavingLater.acu.drain = false ∧ leavingLater.acu.leaveScan = some 0x302
      ∧ atOrBehind (leavingLater.stu.index + 1) 0x302 = false ∧ leavingLater.eligible 5 0x300 = true)
    ∧ (joining.ArrayLaw ∧ joining.stu.takesBoundary = true ∧ joining.eligible 5 0x300 = true)
    ∧ (let s := withTable [(5, .pending 0x301)] (onAcu (fun a => { a with joinScan := some 0x301 }) joining)
       s.ArrayLaw ∧ s.stu.takesBoundary = true ∧ s.acu.refusalPending = false ∧ s.eligible 5 0x300 = false) := by
  refine ⟨⟨test_member_lawful.1, ?_⟩, ⟨arrayLaw_of_lawful ?_, ?_⟩, ⟨arrayLaw_of_lawful ?_, ?_⟩,
    ⟨test_joining_lawful.1, ?_⟩, arrayLaw_of_lawful ?_, ?_⟩ <;> decide +kernel

/-- R65: a window of 12 ids from 20 covers 31 and not 19; with every range 0 each id is in a window. -/
theorem test_windows_at_their_ends :
    let s := onCs (fun c => { c with committed := (c.committed.set 20 20).set 21 12 }) member
    s.param .win2Start = 20 ∧ s.param .win2Range = 12 ∧ s.inWindows 20 = true ∧ s.inWindows 31 = true ∧ s.inWindows 19 = false
    ∧ ∀ k, member.inWindows k = true := by decide +kernel

/-- A leaver before its leave scan closes at the deadline and opens an entry, as a member does. -/
theorem test_boundary_of_a_leaver_before_its_scan :
    (after (.boundary {}) leavingLater).map (fun t =>
        (t.acu.state, t.mu.current, t.rcu.queue.map (·.scan), t.spc.capture)) = some (.leaving, some 1, [0x2FD], .strobe) := by
  decide +kernel

/-- Node 5 draining, one entry left, with peers that the boundary of $000300 advances. -/
def drainingPeers : State := { draining lastSlot with
  ru := { leaving.ru with members := tableOf [(2, .pending 0x300), (9, .departing 0x100 0x300)] } }

theorem test_witness_BoundaryAdvancesPeers :
    (member.ArrayLaw ∧ member.stu.takesBoundary = true ∧ member.acu.state.inArray = true ∧ member.acu.leaveScan = none)
    ∧ (let s := onAcu (fun a => { a with refusalPending := true }) joining
       s.ArrayLaw ∧ s.stu.takesBoundary = true ∧ s.acu.state.inArray = true ∧ s.acu.leaveScan = none)
    ∧ (drainingPeers.ArrayLaw ∧ drainingPeers.stu.takesBoundary = true ∧ drainingPeers.acu.state.inArray = true
      ∧ drainingPeers.acu.leaveScan = some 0x300)
    ∧ Scan.forward (drainingPeers.stu.index + 1) 0x300 ≠ Scan.tieDistance := by
  refine ⟨⟨test_member_lawful.1, ?_⟩, ⟨arrayLaw_of_lawful ?_, ?_⟩, ⟨arrayLaw_of_lawful ?_, ?_⟩, ?_⟩ <;> decide +kernel

/-- R22 at the boundary whose close ends a drain: the RU advances the peers when it comes before the MU, and finds the node
CONFIGURED when it comes after. -/
theorem test_peers_advance_before_the_drain_ends :
    (after (.boundary { ruBeforeMu := true }) drainingPeers).map (fun t =>
        (t.acu.state, (t.member 2).membership, (t.member 9).membership, t.eventSet .memberChange))
      = some (.configured, .active 0x300, .absent, true)
    ∧ (after (.boundary {}) drainingPeers).map (fun t =>
        (t.acu.state, (t.member 2).membership, (t.member 9).membership, t.eventSet .memberChange))
      = some (.configured, .pending 0x300, .departing 0x100 0x300, false) := by decide +kernel

/-- R64: a report taken before the MU reads eligibility removes a lost node from the entry that opens. -/
theorem test_reports_first_change_eligibility :
    let s := onCs (fun c => { c with committed := c.committed.set 8 1 }) member
    (after (.boundary { reportsFirst := true }) s).map (fun t => (t.mu.slots[(1 : Slot)].map (·.expected), t.ru.reports))
      = some (some 0x24, [])
    ∧ (after (.boundary {}) s).map (fun t => t.mu.slots[(1 : Slot)].map (·.expected)) = some (some 0x224) := by
  decide +kernel

/-- R4, R50: a refusal before the guard expiry leaves GATE as it is; after it, GATE has been pulled low and let go. -/
theorem test_refusal_in_either_order :
    let s := onAcu (fun a => { a with refusalPending := true }) joining
    (after (.boundary {}) s).map (fun t => (t.acu.state, t.stu.gate, t.stu.gateHigh)) = some (.configured, .detached, true)
    ∧ (after (.boundary { guardFirst := true }) s).map (fun t => (t.acu.state, t.stu.gate, t.stu.gateHigh))
      = some (.configured, .detached, false) := by decide +kernel

/-- The state with the suspend flag as given. -/
def suspendedAs (on : Bool) (s : State) : State := { s with mu := { s.mu with suspended := on } }

/-- Node 5 in JOINING after a rejoin, with the entries of its former membership OPEN and a refusal pending. -/
def refusedRejoin : State := onAcu (fun a => { a with refusalPending := true }) { joining with mu := member.mu }

theorem test_witness_BoundaryInJoining :
    (joining.stu.takesBoundary = true ∧ joining.acu.state = .joining ∧ joining.acu.joinScan = some 0x300
      ∧ joining.acu.refusalPending = false ∧ atOrBehind (joining.stu.index + 1) 0x300 = true
      ∧ atOrBehind (joining.stu.index + 1) 0x301 = false)
    ∧ (onAcu (fun a => { a with joinScan := some 0x301 }) joining).acu.joinScan = some 0x301
    ∧ (onAcu (fun a => { a with refusalPending := true }) joining).acu.refusalPending = true := by decide +kernel

theorem test_witness_BoundaryInJoining_flush :
    (refusedRejoin.ArrayLaw ∧ refusedRejoin.stu.takesBoundary = true ∧ refusedRejoin.acu.state = .joining
      ∧ refusedRejoin.acu.joinScan = some 0x300 ∧ refusedRejoin.acu.refusalPending = true
      ∧ refusedRejoin.mu.suspended = false ∧ refusedRejoin.eligible refusedRejoin.ownId 0x300 = true)
    ∧ ((suspendedAs true refusedRejoin).ArrayLaw ∧ (suspendedAs true refusedRejoin).mu.suspended = true) := by
  refine ⟨⟨arrayLaw_of_lawful ?_, ?_⟩, arrayLaw_of_lawful ?_, ?_⟩ <;> decide +kernel

/-- R51, R63, R77: the records of a refusal after a rejoin, with the ACU before the MU and with the MU before the ACU; and
those of a drain that stalls, oldest first, or their count while records are suspended. -/
theorem test_flushed_records :
    let records := fun t : State => (t.rcu.queue.map fun r => (r.scan, r.kind), t.counter .recordsDiscarded)
    let stalling := onStu (fun u => { u with stall := .running 0 }) (draining member.mu.slots)
    (after (.boundary { acuBeforeMu := true }) refusedRejoin).map records
      = some ([(0x2FD, .flushed), (0x2FE, .flushed), (0x2FF, .flushed)], 0)
    ∧ (after (.boundary {}) refusedRejoin).map records
      = some ([(0x2FD, .partialClose), (0x2FE, .flushed), (0x2FF, .flushed), (0x300, .flushed)], 0)
    ∧ (after (.boundary {}) (suspendedAs true refusedRejoin)).map records = some ([], 4)
    ∧ (after .stallTimerExpiry stalling).map records
      = some ([(0x2FD, .flushed), (0x2FE, .flushed), (0x2FF, .flushed)], 0)
    ∧ (after .stallTimerExpiry (suspendedAs true stalling)).map records = some ([], 3) := by
  refine ⟨?_, ?_, ?_, ?_, ?_⟩ <;> decide +kernel

theorem test_witness_BoundaryInListening :
    (listeningLow.ArrayLaw ∧ listeningLow.stu.takesBoundary = true ∧ listeningLow.acu.state = .listening
      ∧ listeningLow.acu.admission = none)
    ∧ ({ listeningLow with ru := { listeningLow.ru with reports := [⟨0x224, 0x24⟩] } } : State).ArrayLaw
    ∧ (let r := roster9 0x4FF false false 0xFFFFFF [⟨9, .active, 0x100⟩]
       let s := onAcu (fun a => { a with admission := some r }) listeningLow
       s.ArrayLaw ∧ s.stu.takesBoundary = true ∧ s.acu.state = .listening ∧ s.acu.admission = some r) := by
  refine ⟨⟨arrayLaw_of_lawful ?_, ?_⟩, arrayLaw_of_lawful ?_, arrayLaw_of_lawful ?_, ?_⟩ <;> decide +kernel

theorem test_witness_BoundaryInLeaving :
    (leaving.ArrayLaw ∧ leaving.stu.takesBoundary = true ∧ leaving.acu.state = .leaving
      ∧ leaving.acu.leaveScan = some 0x300 ∧ leaving.acu.drain = false ∧ atOrBehind (leaving.stu.index + 1) 0x300 = true
      ∧ leaving.mu.onlyAt 0x2FD = false)
    ∧ (let s : State := { leaving with mu := { leaving.mu with slots := lastSlot, current := none } }
       s.ArrayLaw ∧ s.acu.drain = false ∧ s.mu.onlyAt 0x2FD = true)
    ∧ ((draining lastSlot).ArrayLaw ∧ (draining lastSlot).acu.drain = true ∧ (draining lastSlot).mu.tableEmpty = false
      ∧ (draining lastSlot).mu.onlyAt 0x2FD = true)
    ∧ ((draining leaving.mu.slots).ArrayLaw ∧ (draining leaving.mu.slots).acu.drain = true
      ∧ (draining leaving.mu.slots).mu.onlyAt 0x2FD = false)
    ∧ (leavingLater.ArrayLaw ∧ leavingLater.stu.takesBoundary = true ∧ leavingLater.acu.leaveScan = some 0x302
      ∧ leavingLater.acu.drain = false ∧ atOrBehind (leavingLater.stu.index + 1) 0x302 = false)
    ∧ leaving.stu.index + 1 - BitVec.ofNat 24 (leaving.param .closeLag) - 1 = 0x2FD
    ∧ Scan.forward 0x300 0x300 ≠ Scan.tieDistance ∧ Scan.forward 0x300 0x302 ≠ Scan.tieDistance := by
  refine ⟨⟨test_leaving_lawful.1, ?_⟩, ⟨arrayLaw_of_lawful ?_, ?_⟩, ⟨arrayLaw_of_lawful ?_, ?_⟩,
    ⟨arrayLaw_of_lawful ?_, ?_⟩, ⟨arrayLaw_of_lawful ?_, ?_⟩, ?_⟩ <;> decide +kernel

theorem test_witness_GateLevelsFaultsAndPeriod_levels :
    (configured.stu.takesBoundary = false ∧ configured.stu.gate ≠ .holding)
    ∧ (holdingGate.stu.gate = .holding ∧ holdingGate.stu.faultSeen = false)
    ∧ (let s := onStu (fun u => { u with faultSeen := true }) holdingGate
       s.stu.gate = .holding ∧ s.stu.faultSeen = true) := by
  refine ⟨?_, ?_, ?_⟩ <;> decide +kernel

theorem test_witness_GuardExpiryDecidesGate :
    ((guarded member).HoldControlLaw ∧ (guarded member).stu.guard.runs = true
      ∧ (guarded member).stu.gate = .released .guard ∧ (guarded member).acu.state = .member)
    ∧ ((guarded joining).HoldControlLaw ∧ (guarded joining).acu.state = .joining)
    ∧ ((guarded leaving).HoldControlLaw ∧ (guarded leaving).acu.leaveScan = some 0x300
      ∧ behind 0x300 (guarded leaving).stu.index = true)
    ∧ (let s := onStu (fun u => { u with index := 0x300 }) (guarded leaving)
       s.HoldControlLaw ∧ s.stu.guard.runs = true ∧ s.acu.state = .leaving ∧ s.acu.leaveScan = some 0x300
         ∧ behind 0x300 s.stu.index = false)
    ∧ (let s := observing .due joining
       s.HoldControlLaw ∧ s.stu.guard.runs = true ∧ s.stu.gate = .observing ∧ s.stu.take = .due)
    ∧ (let s := observing .asked joining
       s.HoldControlLaw ∧ s.stu.guard.runs = true ∧ s.stu.gate = .observing ∧ s.stu.take ≠ .due)
    ∧ (member.HoldControlLaw ∧ member.stu.guard.runs = false) := by
  refine ⟨?_, ?_, ?_, ?_, ?_, ?_, ?_⟩ <;> decide +kernel

theorem test_witness_GateLevelsFaultsAndPeriod_period :
    (let s := onStu (fun u => { u with formed := true }) holdingGate
     s.stu.period.runs = true ∧ s.stu.gate = .holding ∧ s.hc.selfHold = false ∧ s.stu.formed = true)
    ∧ (let s := onStu (fun u => { u with formed := false }) holdingGate
       s.stu.period.runs = true ∧ s.selfEligible = true ∧ s.stu.formed = false)
    ∧ (heldBack.stu.period.runs = true ∧ heldBack.hc.selfHold = true)
    ∧ member.stu.period.runs = false := by
  refine ⟨?_, ?_, ?_, ?_⟩ <;> decide +kernel

/-- The state `soloAt n` with a capture in WAITING whose tag carries the given count. -/
def soloCutting (n : Nat) (count : Option Nat) : State :=
  onSpc (fun x => { x with capture := .waiting, tag := some ⟨.solo, 0, count⟩ }) (soloAt n)

theorem test_witness_SoloBoundaryStartsCapture :
    ((soloAt 0).stu.solo = true ∧ (soloAt 0).stu.period = .expired ∧ (soloAt 0).stu.soloMade = false
      ∧ (soloAt 0).spc.capture = .idle ∧ (soloAt 0).calibrating = true ∧ (soloAt 0).spc.count < 40)
    ∧ (let s := onStu (fun u => { u with soloMade := true, formed := true }) (soloAt 39)
       s.stu.solo = true ∧ s.stu.period = .expired ∧ s.stu.formed = true ∧ s.spc.capture = .idle
         ∧ s.calibrating = true ∧ s.spc.count < 40)
    ∧ ((soloAt 3).SampleLaw ∧ (soloAt 3).stu.soloDue = true ∧ (soloAt 3).spc.capture = .idle)
    ∧ ((soloCutting 3 none).SampleLaw ∧ (soloCutting 3 none).stu.soloDue = true
      ∧ (soloCutting 3 none).spc.capture ≠ .idle ∧ tagCount (soloCutting 3 none).spc.tag = none)
    ∧ ((soloCutting 4 (some 4)).SampleLaw ∧ (soloCutting 4 (some 4)).stu.soloDue = true
      ∧ tagCount (soloCutting 4 (some 4)).spc.tag = some 4)
    ∧ ((soloCutting 40 (some 40)).SampleLaw ∧ (soloCutting 40 (some 40)).stu.soloDue = true
      ∧ tagCount (soloCutting 40 (some 40)).spc.tag = some 40 ∧ (soloCutting 40 (some 40)).stu.gate = .detached)
    ∧ configured.stu.solo = false := by
  refine ⟨?_, ?_, ?_, ?_, ?_, ?_, ?_⟩ <;> decide +kernel

/-- R134, R140, R143, R10: a solo boundary that cuts a capture of a count that is not summed goes on to the next count; one
that cuts a capture to be summed ends the calibration and solo pacing, and its own capture carries no count. -/
theorem test_solo_boundary_cuts :
    let seen := fun t : State => (tagCount t.spc.tag, t.spc.result, t.counter .sampleFaults)
    let paced := fun t : State => (t.spc.capture, t.stu.solo, t.stu.period)
    (after .soloBoundary (soloCutting 4 (some 4))).map seen = some (some 5, .none, 1)
    ∧ (after .soloBoundary (soloCutting 4 (some 4))).map paced = some (.strobe, true, .running 0)
    ∧ (after .soloBoundary (soloCutting 5 (some 5))).map seen = some (none, .fail .fault 0, 1)
    ∧ (after .soloBoundary (soloCutting 5 (some 5))).map paced = some (.strobe, false, .stopped) := by
  refine ⟨?_, ?_, ?_, ?_⟩ <;> decide +kernel

theorem test_witness_StallTimerExpires :
    (let s := onStu (fun u => { u with stall := .running 0 }) (draining lastSlot)
     s.stu.stall.runs = true ∧ s.acu.state = .leaving ∧ s.acu.drain = true ∧ s.mu.suspended = false)
    ∧ (let s := suspendedAs true (onStu (fun u => { u with stall := .running 0 }) (draining lastSlot))
       s.stu.stall.runs = true ∧ s.acu.state = .leaving ∧ s.acu.drain = true ∧ s.mu.suspended = true)
    ∧ (member.stu.stall.runs = true ∧ ¬(member.acu.state = .leaving ∧ member.acu.drain = true)
      ∧ member.stu.gate = .released .wait)
    ∧ (let s := onStu (fun u => { u with stall := .running 0 }) holdingGate
       s.stu.stall.runs = true ∧ ¬(s.acu.state = .leaving ∧ s.acu.drain = true) ∧ s.stu.gate ≠ .released .wait)
    ∧ configured.stu.stall.runs = false := by
  refine ⟨?_, ?_, ?_, ?_, ?_⟩ <;> decide +kernel

theorem test_witness_JoinCommand :
    (configured.hpu.resetnLow = false ∧ configured.acu.state = .configured ∧ configured.calibrating = false
      ∧ configured.ArrayLaw ∧ configured.HoldControlLaw)
    ∧ ((soloAt 3).hpu.resetnLow = false ∧ (soloAt 3).calibrating = true) ∧ member.acu.state ≠ .configured :=
  ⟨⟨by decide +kernel, by decide +kernel, by decide +kernel, test_configured_lawful.1, test_configured_lawful.2.1⟩,
    by decide +kernel⟩

theorem test_witness_LeaveCommand :
    (listening.hpu.resetnLow = false ∧ listening.ArrayLaw ∧ listening.HoldControlLaw ∧ listening.acu.state = .listening)
    ∧ ((calibratingAt 3 joining).ArrayLaw ∧ (calibratingAt 3 joining).HoldControlLaw
      ∧ (calibratingAt 3 joining).acu.state = .joining ∧ (calibratingAt 3 joining).acu.joinScan = some 0x300
      ∧ (calibratingAt 3 joining).calibrating = true ∧ (calibratingAt 3 joining).stu.gate ≠ .holding)
    ∧ ((calibratingAt 3 member).ArrayLaw ∧ (calibratingAt 3 member).HoldControlLaw
      ∧ (calibratingAt 3 member).acu.state = .member
      ∧ ((calibratingAt 3 member).member 5).membership = .active 0x100 ∧ (calibratingAt 3 member).ownId = 5
      ∧ (calibratingAt 3 member).calibrating = true ∧ (calibratingAt 3 member).stu.gate ≠ .holding)
    ∧ (leaving.ArrayLaw ∧ leaving.HoldControlLaw ∧ leaving.acu.state = .leaving)
    ∧ (let s := onStu (fun u => { u with gate := .holding, formed := false }) member
       s.ArrayLaw ∧ s.HoldControlLaw ∧ s.acu.state = .member ∧ s.stu.gate = .holding ∧ s.stu.period = .expired
         ∧ (0x303 : Scan) ≠ 0x100) := by
  refine ⟨⟨?_, test_listening_lawful.1, ?_⟩, ⟨arrayLaw_of_lawful ?_, ?_⟩, ⟨arrayLaw_of_lawful ?_, ?_⟩,
    ⟨test_leaving_lawful.1, test_leaving_lawful.2, ?_⟩, arrayLaw_of_lawful ?_, ?_⟩ <;> decide +kernel

theorem test_witness_ListenTimerExpiryTable :
    (listening.acu.state = .listening ∧ listening.acu.listen.runs = true ∧ listening.stu.gateHigh = true
      ∧ listening.acu.matchingSeen = false ∧ listening.acu.mismatchingSeen = false ∧ listening.ArrayLaw)
    ∧ (listeningLow.acu.listen.runs = true ∧ listeningLow.stu.gateHigh = false)
    ∧ (onAcu (fun a => { a with matchingSeen := true }) listening).acu.matchingSeen = true
    ∧ (onAcu (fun a => { a with mismatchingSeen := true }) listening).acu.mismatchingSeen = true
    ∧ member.acu.state ≠ .listening
    ∧ (listening.HoldControlLaw ∧ (onHc (fun h => { h with freezeReason := true }) listening).HoldControlLaw) := by
  refine ⟨⟨?_, ?_, ?_, ?_, ?_, test_listening_lawful.1⟩, ?_, ?_, ?_, ?_, ?_⟩ <;> decide +kernel

/-- R103, R104, R107: at the founding FREEZE turns self-hold on, with a HOLD request. -/
theorem test_founding_under_freeze :
    (after (.listenTimerExpiry false) (onHc (fun h => { h with freezeReason := true }) listening)).map
        (fun t => (t.hc.selfHold, t.hc.requested, t.bac.holdItem, t.bac.transmitter))
      = some (true, 1000, some ⟨0, false⟩, .accessWait) := by decide +kernel

theorem test_witness_EligibilityAndScanComparison :
    ((0 : Scan) - 0).toNat = 0 ∧ ((0 : Scan) - 0xFFFFFF).toNat = 1 ∧ ((0x7FFFFF : Scan) - 0).toNat = 8388607
    ∧ ((0x800000 : Scan) - 0).toNat = 8388608 ∧ ((0x800001 : Scan) - 0).toNat = 8388609
    ∧ ((0 : Scan) - 1).toNat = 16777215 := by decide

theorem test_witness_RosterAnnouncement :
    (let r := roster9 0x2FF false true 0x303 [⟨9, .active, 0x100⟩]
     let s := inbox (.roster r) member
     s.bac.inbound = [.roster r] ∧ s.acu.state.inArray = true ∧ r.sender ≠ s.ownId
       ∧ aheadOfNode s.ownId r.sender s.stu.index r.currentScan = false)
    ∧ (let r := roster9 7 false false 0xFFFFFF []
       (inbox (.roster r) listening).bac.inbound = [.roster r]
         ∧ (inbox (.roster r) listening).acu.state = .listening
         ∧ (inbox (.roster r) configured).acu.state.offGate = true)
    ∧ ∀ r rest, member.bac.inbound ≠ .roster r :: rest := by
  refine ⟨?_, ?_, fun r => no_head (by decide +kernel) _⟩ <;> decide +kernel

theorem test_witness_RosterRealignsNode :
    let r := roster9 0x310 false false 0xFFFFFF [⟨9, .active, 0x100⟩]
    ((inbox (.roster r) member).bac.inbound = [.roster r] ∧ (inbox (.roster r) member).acu.state.inArray = true
      ∧ aheadOfNode member.ownId r.sender member.stu.index r.currentScan = true ∧ member.acu.state ≠ .leaving)
    ∧ (inbox (.roster r) joining).acu.state = .joining
    ∧ ((inbox (.roster r) (draining (Vector.replicate 8 none))).acu.state = .leaving
      ∧ (inbox (.roster r) (draining (Vector.replicate 8 none))).mu.tableEmpty = true)
    ∧ ((inbox (.roster r) leaving).acu.state = .leaving ∧ (inbox (.roster r) leaving).acu.drain = false
      ∧ (inbox (.roster r) leaving).mu.tableEmpty = false)
    ∧ ((inbox (.roster r) (draining lastSlot)).acu.drain = true ∧ (inbox (.roster r) (draining lastSlot)).acu.state = .leaving
      ∧ (inbox (.roster r) (draining lastSlot)).mu.tableEmpty = false
      ∧ (inbox (.roster r) (draining lastSlot)).mu.current = none)
    ∧ ((inbox (.roster r) member).SelfLaw ∧ r.sender ≠ member.ownId
      ∧ (member.member r.sender).membership.isActive = true ∧ r.leave = false ∧ (∀ e ∈ r.list, e.id ≠ member.ownId)
      ∧ (member.member member.ownId).membership = .active 0x100
      ∧ 65536 ≤ Scan.forward r.currentScan (0x100 + (r.currentScan - member.stu.index)))
    ∧ (let r := roster9 0x310 false false 0xFFFFFF [⟨5, .active, 0x100⟩, ⟨9, .active, 0x100⟩]
       (inbox (.roster r) member).SelfLaw ∧ ¬∀ e ∈ r.list, e.id ≠ member.ownId) := by
  refine ⟨?_, ?_, ?_, ?_, ?_, ?_, ?_⟩ <;> decide +kernel

/-- R51, R57: a realign in LEAVING moves L, with entries OPEN too; in a drain it closes the last entries, which completes it. -/
theorem test_realign_in_leaving :
    let r : Frame := .roster (roster9 0x310 false false 0xFFFFFF [⟨9, .active, 0x100⟩])
    (after .rosterTaken (inbox r leaving)).map (fun t => (t.acu.state, t.acu.leaveScan)) = some (.leaving, some 0x311)
    ∧ (after .rosterTaken (inbox r (draining lastSlot))).map
        (fun t => (t.acu.state, t.acu.leaveScan, t.rcu.queue.map (·.kind))) = some (.configured, none, [.realigned]) := by
  decide +kernel

/-- R33: at a realign the self entry's scan moves with the index, and the sender's. -/
theorem test_realign_moves_the_self_entry :
    (after .rosterTaken (inbox (.roster (roster9 0x310 false false 0xFFFFFF
        [⟨5, .active, 0x100⟩, ⟨9, .active, 0x100⟩])) member)).map
      (fun t => (t.stu.index, (t.member 5).membership, (t.member 9).membership, (t.member 2).membership))
    = some (0x310, .active 0x111, .active 0x111, .active 0x111) := by decide +kernel

theorem test_witness_RosterSelfDrop :
    let r := roster9 0x2FF false false 0xFFFFFF [⟨9, .active, 0x100⟩]
    let s := inbox (.roster r) member
    (s.bac.inbound = [.roster r] ∧ s.acu.state = .member ∧ r.sender ≠ s.ownId ∧ r.leave = false
      ∧ aheadOfNode s.ownId r.sender s.stu.index r.currentScan = false
      ∧ (s.member s.ownId).membership = .active 0x100 ∧ (s.member r.sender).membership = .active 0x100
      ∧ (∀ e ∈ r.list, e.id ≠ s.ownId) ∧ 65536 ≤ Scan.forward r.currentScan 0x100)
    ∧ (let r := roster9 0x2FF false true 0x303 [⟨9, .active, 0x100⟩]
       let s := inbox (.roster r) member
       s.bac.inbound = [.roster r] ∧ s.acu.state = .member ∧ r.sender ≠ s.ownId ∧ r.leave = true
         ∧ aheadOfNode s.ownId r.sender s.stu.index r.currentScan = false
         ∧ (after .rosterTaken s).map (fun t => (t.acu.state, (t.member 9).membership))
           = some (.member, .departing 0x100 0x303))
    ∧ 65536 ≤ Scan.forward 0x2FF 0x102FF ∧ Scan.forward 0x2FF 0x102FE < 65536
    ∧ ((withTable [(5, .active 0x100), (9, .pending 0x300)] s).member r.sender).membership.isActive = false := by
  refine ⟨?_, ?_, ?_, ?_, ?_⟩ <;> decide +kernel

/-- A member with a nonzero hold of node 9. -/
def heldByPeer : State := setMember 9 { membership := .active 0x100, hold := 3 } member

theorem test_witness_HoldFieldsSetAndCleared :
    (let s := inbox (.hold 9 0xFFFF) member
     s.bac.inbound = [.hold 9 0xFFFF] ∧ s.acu.state.inArray = true ∧ (s.member 9).membership.isAbsent = false)
    ∧ (let s := inbox (.hold 9 0) heldByPeer
       s.bac.inbound = [.hold 9 0] ∧ s.acu.state.inArray = true ∧ (s.member 9).membership.isAbsent = false)
    ∧ (let s := inbox (.hold 7 3) member
       s.bac.inbound = [.hold 7 3] ∧ s.acu.state.inArray = true ∧ (s.member 7).membership.isAbsent = true)
    ∧ (inbox (.hold 9 3) configured).acu.state.inArray = false
    ∧ (∀ k q rest, member.bac.inbound ≠ .hold k q :: rest)
    ∧ (heldByPeer.member 9).hold ≠ 0 ∧ (heldByPeer.member 2).hold = 0 := by
  refine ⟨?_, ?_, ?_, ?_, fun k q => no_head (by decide +kernel) _, ?_, ?_⟩ <;> decide +kernel

/-- A member with a deadline report, MISS_LIMIT as given. -/
def reported (limit : Word) : State := onCs (fun c => { c with committed := c.committed.set 8 limit })
  { member with ru := { member.ru with reports := [⟨0x224, 0x24⟩] } }

theorem test_witness_MissReportCountsAndLoses :
    (reported 1).ru.reports = [⟨0x224, 0x24⟩] ∧ (reported 1).param .missLimit = 1
    ∧ (reported 15).ru.reports = [⟨0x224, 0x24⟩] ∧ (reported 15).param .missLimit = 15 := by decide +kernel

theorem test_witness_SelfHoldFreezeAndRenewal :
    (member.HoldControlLaw ∧ member.hc.selfHold = false ∧ member.stu.gate.takesPart = true)
    ∧ (frozen.HoldControlLaw ∧ frozen.hc.selfHold = true ∧ frozen.hc.backlogReason = false)
    ∧ (heldBack.HoldControlLaw ∧ heldBack.hc.selfHold = true ∧ heldBack.hc.backlogReason = true)
    ∧ (configured.HoldControlLaw ∧ configured.stu.gate.takesPart = false)
    ∧ (frozen.hc.renewal.runs = true ∧ frozen.hc.selfHold = true ∧ frozen.bac.holdItem = none)
    ∧ (onBac (fun b => { b with holdItem := some ⟨0, false⟩ }) frozen).bac.holdItem = some ⟨0, false⟩
    ∧ (let s := onHc (fun h => { h with renewal := .running 5 }) member
       s.hc.renewal.runs = true ∧ s.hc.selfHold = false)
    ∧ member.hc.renewal.runs = false := by
  refine ⟨?_, ?_, ?_, ?_, ?_, ?_, ?_, ?_⟩ <;> decide +kernel

theorem test_witness_ScanFrameNotStored :
    (let f := scanOf 9 0x2FE
     (inbox (.scan f) configured).bac.inbound = [.scan f] ∧ (inbox (.scan f) configured).acu.state.inArray = false)
    ∧ (member.acu.state.inArray = true ∧ (member.member 7).membership.isAbsent = true
      ∧ (member.member 9).membership.isAbsent = false)
    ∧ (aheadOfNode member.ownId 9 member.stu.index 0x2F0 = false
      ∧ (∀ i : Slot, ∀ e ∈ member.mu.slots[i], e.scan ≠ 0x2F0) ∧ (0x2F0 : Scan) ≠ member.stu.index)
    ∧ (joining.acu.state = .joining ∧ ∀ i : Slot, ∀ e ∈ joining.mu.slots[i], e.scan ≠ 0x2F0)
    ∧ (aheadOfNode member.ownId 2 member.stu.index 0x2FE = false ∧ member.mu.slots[(2 : Slot)] = some (entryOf 0x2FE [2, 5])
      ∧ (∀ j : Slot, j < 2 → ∀ g ∈ member.mu.slots[j], g.scan ≠ 0x2FE)
      ∧ inSet (entryOf 0x2FE [2, 5]).expected 2 = true ∧ inSet (entryOf 0x2FE [2, 5]).present 2 = true
      ∧ inSet (entryOf 0x2FE [2, 5]).expected 7 = false)
    ∧ (∀ f rest, member.bac.inbound ≠ .scan f :: rest) := by
  refine ⟨?_, ?_, ?_, ?_, ?_, fun f => no_head (by decide +kernel) _⟩ <;> decide +kernel

theorem test_witness_ScanFrameStored :
    (let s := inbox (.scan (scanOf 9 0x2FF)) member
     s.bac.inbound = [.scan (scanOf 9 0x2FF)] ∧ s.acu.state.inArray = true ∧ (s.member 9).membership.isAbsent = false
       ∧ aheadOfNode s.ownId 9 s.stu.index 0x2FF = false ∧ s.mu.slots[(0 : Slot)] = some (entryOf 0x2FF [])
       ∧ inSet (entryOf 0x2FF []).expected 9 = true ∧ inSet (entryOf 0x2FF []).present 9 = false
       ∧ insertId (entryOf 0x2FF []).present 9 ≠ (entryOf 0x2FF []).expected)
    ∧ (let s := inbox (.scan (scanOf 9 0x2FE)) member
       s.mu.slots[(2 : Slot)] = some (entryOf 0x2FE [2, 5]) ∧ (∀ j : Slot, j < 2 → ∀ g ∈ s.mu.slots[j], g.scan ≠ 0x2FE)
         ∧ aheadOfNode s.ownId 9 s.stu.index 0x2FE = false
         ∧ insertId (entryOf 0x2FE [2, 5]).present 9 = (entryOf 0x2FE [2, 5]).expected ∧ s.acu.state = .member)
    ∧ (let s := inbox (.scan (scanOf 9 0x2FD)) (draining lastSlot)
       s.bac.inbound = [.scan (scanOf 9 0x2FD)] ∧ s.acu.state = .leaving ∧ s.acu.drain = true
         ∧ (s.member 9).membership.isAbsent = false ∧ aheadOfNode s.ownId 9 s.stu.index 0x2FD = false
         ∧ s.mu.slots[(1 : Slot)] = some (entryOf 0x2FD [2, 5]) ∧ (∀ j : Slot, j ≠ 1 → s.mu.slots[j] = none)
         ∧ insertId (entryOf 0x2FD [2, 5]).present 9 = (entryOf 0x2FD [2, 5]).expected)
    ∧ (let l := (entryOf 0x2FD [2, 9]).contributions
       ascendingIds (l.map (·.node)) = true ∧ (∀ d ∈ l, d.node ≠ 5)
         ∧ (insertContribution { node := 5 } l).map (·.node) = [2, 5, 9]) := by
  refine ⟨?_, ?_, ?_, ?_⟩ <;> decide +kernel

/-- `realigning` with the current entry as given. -/
def realigningWith (e : Option Entry) : State := { realigning with
  mu := { realigning.mu with slots := realigning.mu.slots.set 0 e, current := e.map fun _ => 0 } }

/-- The hypotheses of a SCAN frame that is ahead. -/
theorem test_witness_ScanFrameAheadRealigns :
    let complete := entryOf 0x302 [2, 5]
    let duplicate := entryOf 0x302 [5, 9]
    let unexpected : Entry := { entryOf 0x302 [5] with expected := 0x24 }
    (realigning.ArrayLaw ∧ realigning.bac.inbound = [.scan (scanOf 9 0x310)] ∧ realigning.acu.state.inArray = true
      ∧ (realigning.member 9).membership.isAbsent = false
      ∧ aheadOfNode realigning.ownId 9 realigning.stu.index 0x310 = true ∧ realigning.mu.suspended = false
      ∧ realigning.mu.slots[(0 : Slot)] = some (entryOf 0x302 [5])
      ∧ insertId (entryOf 0x302 [5]).present 9 ≠ (entryOf 0x302 [5]).expected)
    ∧ ((realigningWith none).ArrayLaw ∧ (realigningWith none).mu.current = none)
    ∧ ((realigningWith (some complete)).ArrayLaw ∧ insertId complete.present 9 = complete.expected)
    ∧ ((realigningWith (some duplicate)).ArrayLaw ∧ inSet duplicate.expected 9 = true ∧ inSet duplicate.present 9 = true)
    ∧ ((realigningWith (some unexpected)).ArrayLaw ∧ inSet unexpected.expected 9 = false) := by
  refine ⟨⟨arrayLaw_of_lawful ?_, ?_⟩, ⟨arrayLaw_of_lawful ?_, ?_⟩, ⟨arrayLaw_of_lawful ?_, ?_⟩,
    ⟨arrayLaw_of_lawful ?_, ?_⟩, arrayLaw_of_lawful ?_, ?_⟩ <;> decide +kernel

/-- Node 5 with the last SCAN frame of $0002FE at hand and `n` records in its queue. -/
def appending (n : Nat) : State :=
  onRcu (fun u => { u with queue := List.replicate n projected, pointer := 3 }) (inbox (.scan (scanOf 9 0x2FE)) member)

theorem test_witness_RecordAppended :
    ((appending 0).bac.inbound = [.scan (scanOf 9 0x2FE)] ∧ (appending 0).acu.state = .member
      ∧ ((appending 0).member 9).membership.isAbsent = false
      ∧ aheadOfNode (appending 0).ownId 9 (appending 0).stu.index 0x2FE = false
      ∧ (appending 0).mu.slots[(2 : Slot)] = some (entryOf 0x2FE [2, 5])
      ∧ (∀ j : Slot, j < 2 → ∀ g ∈ (appending 0).mu.slots[j], g.scan ≠ 0x2FE)
      ∧ insertId (entryOf 0x2FE [2, 5]).present 9 = (entryOf 0x2FE [2, 5]).expected
      ∧ (appending 0).HoldControlLaw ∧ (appending 0).mu.suspended = false)
    ∧ ((appending 23).HoldControlLaw ∧ (appending 23).param .queueHigh = 24 ∧ (appending 23).stu.gate.takesPart = true) := by
  refine ⟨?_, ?_⟩ <;> decide +kernel

/-- R88, R95, R103, R104: the first record sets the pointer to 0; the 24th sets the backlog flag and self-hold. -/
theorem test_record_appended :
    (after .scanFrameTaken (appending 0)).map (fun t =>
        (t.rcu.queue.length, t.rcu.pointer, t.eventSet .recordAvailable, t.eventSet .queueHigh))
      = some (1, 0, true, false)
    ∧ (after .scanFrameTaken (appending 23)).map (fun t =>
        (t.rcu.pointer, t.rcu.backlog, t.eventSet .recordAvailable, t.eventSet .queueHigh))
      = some (3, true, false, true)
    ∧ (after .scanFrameTaken (appending 23)).map (fun t => (t.hc.selfHold, t.hc.requested)) = some (true, 1000) := by
  decide +kernel

theorem test_witness_RecordCommands_suspend : member.hpu.resetnLow = false := by decide +kernel

/-- A frame of the own id, and one of node 9 with a wrong digest. -/
def ownFrame : Frame := .hold 5 0
/-- See `ownFrame`. -/
def strangeRoster : Roster := { roster9 0 false false 0 [] with digest := digestOf set5 + 1 }

theorem test_witness_ReceivedFrameEndOutcomes :
    member.bac.receiver ≠ .receiving
    ∧ (receiving.bac.receiver = .receiving ∧ failsAs .fragment (checkFrame (receiving.param .width) []) = true)
    ∧ (takenAs (.roster strangeRoster) (checkFrame (receiving.param .width) (Frame.roster strangeRoster).encode) = true
      ∧ strangeRoster.digest ≠ receiving.cs.digest)
    ∧ (takenAs (.hold 9 1) (checkFrame (receiving.param .width) (Frame.hold 9 1).encode) = true
      ∧ (9 : NodeId) ≠ receiving.ownId ∧ receiving.bac.inbound.length < 4)
    ∧ 4 ≤ (onBac (fun b => { b with inbound := List.replicate 4 (.hold 9 1) }) receiving).bac.inbound.length
    ∧ (takenAs ownFrame (checkFrame (receiving.param .width) ownFrame.encode) = true
      ∧ ownFrame.sender = receiving.ownId ∧ receiving.acu.state ≠ .listening)
    ∧ (let s := onBac (fun b => { b with receiver := .receiving, line := .on 4 true }) listening
       s.bac.receiver = .receiving ∧ s.acu.state = .listening ∧ ownFrame.sender = s.ownId ∧ s.ArrayLaw)
    ∧ ((List.replicate 6 (0 : Byte)).length < 7 ∧ 175 < (List.replicate 176 (0 : Byte)).length
      ∧ crc16 ((List.replicate 7 (0 : Byte)).take 5) ≠ word16At (List.replicate 7 (0 : Byte)) 5
      ∧ ownFrame.encode.length = 7 ∧ crc16 (ownFrame.encode.take 5) = word16At ownFrame.encode 5
      ∧ parseFrame 24 ownFrame.encode = some ownFrame) := by
  refine ⟨?_, ?_, ?_, ?_, ?_, ?_, ⟨?_, ?_, ?_, arrayLaw_of_lawful ?_⟩, ?_⟩ <;> decide +kernel

/-- A good CRC on a byte string whose length byte is wrong. -/
def malformedBytes : List Byte := [0x48, 9, 8, 0, 1] ++ bytes16 (crc16 [0x48, 9, 8, 0, 1])

theorem test_witness_ReceivedFrameEndOutcomes_malformed :
    malformedBytes.length = 7 ∧ crc16 (malformedBytes.take 5) = word16At malformedBytes 5
    ∧ parseFrame 24 malformedBytes = none := by decide +kernel

/-- The bytes of a ROSTER of node 9 that lists nodes 2 and 5. -/
def rosterBytes : List Byte := (Frame.roster (roster9 1 true false 2 [⟨2, .pending, 3⟩, ⟨5, .departing, 4⟩])).encode

/-- The bytes with byte `i` replaced. -/
def poke (i : Nat) (b : Byte) (bytes : List Byte) : List Byte := bytes.set i b

/-- Byte strings for each clause: those read, and for each kind one malformed in each way. -/
theorem test_witness_FrameFieldsRead :
    parseFrame 24 (Frame.hold 9 100).encode = some (.hold 9 100) ∧ parseFrame 16 scan16.encode = some scan16
    ∧ rosterBytes.length = 25 ∧ rosterBytes.getD 12 0 = 2
    ∧ parseFrame 24 rosterBytes = some (.roster (roster9 1 true false 2 [⟨2, .pending, 3⟩, ⟨5, .departing, 4⟩]))
    ∧ ([poke 2 8 (Frame.hold 9 100).encode, poke 0 0x54 (Frame.hold 9 100).encode, poke 1 32 (Frame.hold 9 100).encode,
        poke 2 8 ((Frame.hold 9 100).encode ++ [0]), poke 7 5 scan16.encode, poke 7 2 scan16.encode,
        poke 6 1 scan16.encode, poke 6 2 scan16.encode,
        poke 6 0 (Frame.scan ⟨1, { node := 5, cal := true }⟩).encode,
        poke 12 3 rosterBytes, poke 13 32 rosterBytes, poke 14 0 rosterBytes, poke 14 4 rosterBytes, poke 18 2 rosterBytes,
        poke 18 1 rosterBytes].all fun b => decide (parseFrame 24 b = none)) = true := by
  refine ⟨?_, ?_, ?_, ?_, ?_, ?_⟩ <;> decide +kernel

theorem test_witness_AccessWaitChoosesFrame :
    (let s := waitingWith (some {}) (some {}) fourItems
     s.bac.transmitter = .accessWait ∧ s.bac.line.carrier = false ∧ s.bac.resetPending = false ∧ s.bac.holdItem = some {})
    ∧ (let s := waitingWith none (some {}) fourItems
       s.bac.holdItem = none ∧ s.bac.rosterItem = some {})
    ∧ (let s := waitingWith none none fourItems
       s.bac.holdItem = none ∧ s.bac.rosterItem = none ∧ s.bac.scanItems = fourItems)
    ∧ (waitingWith none none []).bac.scanItems = []
    ∧ (let s := onBac (fun b => { b with resetPending := true }) (waitingWith none none [])
       s.bac.transmitter = .accessWait ∧ s.bac.line.carrier = false ∧ s.bac.resetPending = true)
    ∧ member.bac.transmitter ≠ .accessWait
    ∧ (let s := onBac (fun b => { b with line := .on 4 true, receiver := .receiving }) (waitingWith (some {}) none [])
       s.bac.transmitter = .accessWait ∧ s.bac.receiver = .receiving ∧ s.bac.resetPending = false)
    ∧ (let s := onBac (fun b => { b with line := .on 4 true, receiver := .blind }) (waitingWith (some {}) none [])
       s.bac.transmitter = .accessWait ∧ ¬(s.bac.line.carrier = false ∨ s.bac.receiver = .receiving))
    ∧ (joining.acu.state = .joining ∧ joining.acu.joinScan = some 0x300)
    ∧ (leaving.acu.state = .leaving ∧ leaving.acu.leaveScan = some 0x300)
    ∧ (member.acu.state ≠ .joining ∧ member.acu.state ≠ .leaving) := by
  refine ⟨?_, ?_, ?_, ?_, ?_, ?_, ?_, ?_, ?_, ?_, ?_⟩ <;> decide +kernel

/-- R116: an attempt that starts over a frame being received discards it, with no count. -/
theorem test_attempt_discards_the_frame_being_received :
    (after .accessWaitComplete (onBac (fun b => { b with line := .on 4 true, receiver := .receiving })
        (waitingWith (some {}) none []))).map
      (fun t => (t.bac.transmitter, t.bac.receiver, decide (t.hpu.counters = member.hpu.counters)))
    = some (.sending, .blind, true) := by decide +kernel

/-- R116: with another node's carrier begun under its frame, the node stays BLIND after the success, until the line is idle. -/
theorem test_blind_until_the_carrier_ends :
    (after .carrierStart (sendingFrame (.hold 5 7))).map (fun t => t.bac.inTx.map (·.overlapped)) = some (some true)
    ∧ (let s := onBac (fun b => { b with inTx := some ⟨{}, .hold 5 7, 0, false, true⟩ }) (sendingFrame (.hold 5 7))
       (after .txSuccess s).map (fun t => (t.bac.receiver, t.bac.line)) = some (.blind, .on 4 true))
    ∧ (after .txSuccess (sendingFrame (.hold 5 7))).map (fun t => (t.bac.receiver, t.bac.line))
      = some (.ready, .on 4 false)
    ∧ (let s := onBac (fun b => { b with receiver := .blind, line := .on 4 true }) member
       (after .lineIdle s).map (fun t => (t.bac.receiver, t.bac.line)) = some (.ready, .on 4 false)) := by
  refine ⟨?_, ?_, ?_, ?_⟩ <;> decide +kernel

theorem test_witness_TransmissionSucceedsOrCollides_success :
    ((sendingFrame (.hold 5 7)).bac.transmitter = .sending
      ∧ (sendingFrame (.hold 5 7)).bac.inTx = some ⟨{}, .hold 5 7, 0, false, false⟩)
    ∧ member.bac.transmitter ≠ .sending := by decide +kernel

theorem test_witness_TransmissionSucceedsOrCollides_collision :
    ((sendingFrame (.roster (roster9 0 false false 0 []))).bac.transmitter = .sending
      ∧ (0 ≤ (Frame.roster (roster9 0 false false 0 [])).length ∧ 8 ≤ (Frame.roster (roster9 0 false false 0 [])).length
        ∧ 9 ≤ (Frame.roster (roster9 0 false false 0 [])).length))
    ∧ (sendingFrame (.hold 5 7)).bac.inTx = some ⟨{}, .hold 5 7, 0, false, false⟩ ∧ (Frame.hold 5 7).length < 8 := by
  decide +kernel

theorem test_witness_JamEndBackoffAndCarrier_jam :
    ((jammingFrame (.hold 5 7) true).bac.transmitter = .jamming
      ∧ (jammingFrame (.hold 5 7) true).bac.inTx = some ⟨⟨1, false⟩, .hold 5 7, 2, true, false⟩)
    ∧ (jammingFrame (.hold 5 7) false).bac.inTx = some ⟨⟨1, false⟩, .hold 5 7, 2, false, false⟩
    ∧ (jammingFrame (.roster (roster9 0 false false 0 [])) false).bac.inTx
      = some ⟨⟨1, false⟩, .roster (roster9 0 false false 0 []), 2, false, false⟩
    ∧ ((jammingFrame (.scan (scanOf 5 3)) false).bac.inTx = some ⟨⟨1, false⟩, .scan (scanOf 5 3), 2, false, false⟩
      ∧ (jammingFrame (.scan (scanOf 5 3)) false).bac.scanItems.length < 4)
    ∧ 4 ≤ (onBac (fun b => { b with scanItems := fourItems }) (jammingFrame (.scan (scanOf 5 3)) false)).bac.scanItems.length
    ∧ member.bac.transmitter ≠ .jamming := by decide +kernel

theorem test_witness_JamEndBackoffAndCarrier_line :
    (let s := onBac (fun b => { b with transmitter := .backoff, backoff := 20 }) member
     s.bac.transmitter = .backoff ∧ s.bac.resetPending = false)
    ∧ (let s := onBac (fun b => { b with transmitter := .backoff, resetPending := true }) member
       s.bac.transmitter = .backoff ∧ s.bac.resetPending = true)
    ∧ (member.bac.transmitter ≠ .backoff ∧ member.bac.line = .on 4 false ∧ member.bac.receiver = .ready
      ∧ member.bac.transmitter.drives = false)
    ∧ (State.reset.bac.line = .off ∧ State.reset.bac.receiver = .off ∧ receiving.bac.line.carrier = true
      ∧ receiving.bac.receiver = .receiving)
    ∧ (onBac (fun b => { b with receiver := .seeking }) member).bac.receiver = .seeking
    ∧ (onBac (fun b => { b with receiver := .blind }) member).bac.receiver = .blind
    ∧ ((sendingFrame (.hold 5 7)).bac.line.carrier = true ∧ (sendingFrame (.hold 5 7)).bac.transmitter = .sending)
    ∧ receiving.bac.transmitter ≠ .sending := by
  refine ⟨?_, ?_, ?_, ?_, ?_, ?_, ?_, ?_⟩ <;> decide +kernel

theorem test_witness_FrameEncodingRoundTrip :
    (Frame.scan ⟨0xFFFFFF, { node := 31, samples := [-32768, 32767] }⟩).wellFormed 16 = true
    ∧ (Frame.scan ⟨0, { node := 0, samples := [-131072, 131071] }⟩).wellFormed 18 = true
    ∧ (Frame.scan ⟨0, { node := 0, samples := [-524288, 524287, 0, 1] }⟩).wellFormed 20 = true
    ∧ (Frame.scan ⟨0, { node := 0, samples := [-8388608, 8388607] }⟩).wellFormed 24 = true
    ∧ (Frame.scan ⟨0, { node := 0, fault := true }⟩).wellFormed 24 = true
    ∧ (Frame.roster (roster9 0 true true 5 [⟨0, .pending, 1⟩, ⟨31, .departing, 2⟩])).wellFormed 24 = true
    ∧ (Frame.hold 31 0xFFFF).wellFormed 24 = true
    ∧ ((sendingFrame (.hold 5 7)).bac.transmitter = .sending
      ∧ (sendingFrame (.hold 5 7)).bac.inTx = some ⟨{}, .hold 5 7, 0, false, false⟩
      ∧ (Frame.hold 5 7).encode[0]? = some 0x48 ∧ (Frame.hold 5 7).encode.length = 7)
    ∧ (jammingFrame (.hold 5 7) false).bac.transmitter = .jamming
    ∧ (member.bac.transmitter ≠ .sending ∧ member.bac.transmitter ≠ .jamming) := by decide +kernel

/-- R114, R174: a HOLD frame on DATA: the start delimiter, then its kind $48 and its sender 5 bit by bit, the most significant
bit first, and nothing after its 16 + 8 × 7 bit times. -/
theorem test_bits_on_data :
    let bits := fun from_ => (List.range 8).map fun j => (sendingFrame (.hold 5 7)).dataOut (from_ + j)
    (sendingFrame (.hold 5 7)).dataOut 0 = .delimiter ∧ (sendingFrame (.hold 5 7)).dataOut 15 = .delimiter
    ∧ bits 16 = [.bit false, .bit true, .bit false, .bit false, .bit true, .bit false, .bit false, .bit false]
    ∧ bits 24 = [.bit false, .bit false, .bit false, .bit false, .bit false, .bit true, .bit false, .bit true]
    ∧ (sendingFrame (.hold 5 7)).dataOut 71 ≠ .released ∧ (sendingFrame (.hold 5 7)).dataOut 72 = .released
    ∧ (jammingFrame (.hold 5 7) false).dataOut 31 = .jam ∧ (jammingFrame (.hold 5 7) false).dataOut 32 = .released := by
  decide +kernel

/-- The levels of the SDATA lines at 24 pulses of SCLK that clock the given values, most significant bit first. -/
def linesOf (values : Vector RawValue 4) : List SdataLevels :=
  (List.range 24).map fun i => Vector.ofFn fun c => values[c].getLsbD (23 - i)

/-- The lines of a capture of the values 1, 2, 3 and 4. -/
def someLines : List SdataLevels := linesOf #v[1, 2, 3, 4]

/-- R133: bits are taken most significant first, W of them, those clocked before the command and those that come with it;
a line that stays as it is gives the same bit at each pulse; the levels after the burst stand. -/
theorem test_bits_are_clocked_msb_first :
    capturing.rawValues someLines = #v[1, 2, 3, 4]
    ∧ (onSpc (fun x => { x with clocked := (linesOf #v[0xABCDEF, 2, 3, 4]).take 20 }) capturing).rawValues
        ((linesOf #v[0xABCDEF, 2, 3, 4]).drop 20) = #v[0xABCDEF, 2, 3, 4]
    ∧ (onCs (fun c => { c with committed := c.committed.set 2 16 })
        (onSpc (fun x => { x with sdata := #v[true, false, true, false] }) capturing)).rawValues [] = #v[0xFFFF, 0, 0xFFFF, 0]
    ∧ (after (.captureComplete (someLines ++ [#v[true, true, true, false]])) capturing).map
        (fun t => (t.spc.raw, t.spc.sdata))
      = some (#v[some 1, some 2, some 3, some 4], #v[true, true, true, false]) := by
  decide +kernel

/-- The state with no current entry. -/
def unheld (s : State) : State := { s with mu := { s.mu with current := none } }

/-- The state with the own id present in the entry of slot 0, $0002FF. -/
def present5 (s : State) : State := { s with mu := { s.mu with slots := s.mu.slots.set 0 (some (entryOf 0x2FF [5])) } }

theorem test_witness_CaptureCompleteWithSamples :
    member.spc.capture ≠ .clocking
    ∧ (capturing.spc.capture = .clocking ∧ capturing.calibrating = false
      ∧ capturing.spc.tag = some ⟨.boundary, 7, none⟩)
    ∧ ((onSpc (fun x => { x with tag := some ⟨.boundary, 6, none⟩ }) capturing).spc.tag = some ⟨.boundary, 6, none⟩
      ∧ capturing.stu.startSerial = 7)
    ∧ (capturing.selfEligible = true ∧ capturing.mu.current = some 0
      ∧ capturing.mu.slots[(0 : Slot)] = some (entryOf 0x2FF []) ∧ inSet (entryOf 0x2FF []).present capturing.ownId = false
      ∧ insertId (entryOf 0x2FF []).present capturing.ownId ≠ (entryOf 0x2FF []).expected)
    ∧ (let s : State := { capturing with
         mu := { capturing.mu with slots := capturing.mu.slots.set 0 (some (entryOf 0x2FF [2, 9])) } }
       s.SelfLaw ∧ s.selfEligible = true ∧ s.mu.suspended = false ∧ s.mu.current = some 0
         ∧ s.mu.slots[(0 : Slot)] = some (entryOf 0x2FF [2, 9])
         ∧ insertId (entryOf 0x2FF [2, 9]).present s.ownId = (entryOf 0x2FF [2, 9]).expected)
    ∧ (∀ s ∈ [unheld capturing, present5 capturing], s.spc.capture = .clocking ∧ s.calibrating = false
        ∧ s.spc.tag = some ⟨.boundary, 7, none⟩ ∧ s.stu.startSerial = 7 ∧ s.selfEligible = true)
    ∧ ((unheld capturing).mu.current = none ∧ (present5 capturing).mu.current = some 0
      ∧ (present5 capturing).mu.slots[(0 : Slot)] = some (entryOf 0x2FF [5])
      ∧ inSet (entryOf 0x2FF [5]).present (present5 capturing).ownId = true)
    ∧ (capturing.param .width ≤ 24 ∧ 0 < capturing.param .width) := by
  refine ⟨?_, ?_, ?_, ?_, ?_, ?_, ?_, ?_⟩ <;> decide +kernel

/-- R73: with no current entry, or the own contribution in it already, the MU discards the own contribution, and the SCAN frame
is placed all the same. -/
theorem test_own_contribution_discarded_by_the_mu :
    ∀ s ∈ [unheld capturing, present5 capturing],
      (after (.captureComplete someLines) s).map (fun t => (t.mu, t.bac.scanItems.length, t.stu.formed)) = some (s.mu, 1, true)
      ∧ (after .sampleTimeout (onSpc (fun x => { x with capture := .waiting }) s)).map
          (fun t => (t.mu, t.bac.scanItems.length, t.counter .sampleFaults)) = some (s.mu, 1, 1) := by
  decide +kernel

/-- R124: the placing of the SCAN frame takes an IDLE transmitter to ACCESS_WAIT. R94: a record completed while records are
suspended is discarded. -/
theorem test_own_contribution_is_placed :
    (after (.captureComplete someLines) capturing).map (fun t => (t.bac.transmitter, t.bac.scanItems.length))
      = some (.accessWait, 1)
    ∧ (after (.captureComplete someLines) ({ capturing with mu := { capturing.mu with
        slots := capturing.mu.slots.set 0 (some (entryOf 0x2FF [2, 9])), suspended := true } })).map
        (fun t => (t.rcu.queue, t.counter .recordsComplete, t.counter .recordsDiscarded)) = some ([], 1, 1) := by
  decide +kernel

/-- The last capture of a calibration, the sums of every channel being those of a pass. -/
def lastCalCapture (sums : Sums) : State := onSpc (fun x => { x with
  capture := .clocking, tag := some ⟨.boundary, 7, some 40⟩, sums := Vector.replicate 4 sums }) (calibratingAt 40 member)

/-- Does the evaluation pass? -/
def passes (v : Except CalCause Correction) : Bool :=
  match v with
  | .ok _ => true
  | .error _ => false

/-- A capture of count 5 being clocked in a calibration, with the given nodes present in the current entry. -/
def calCapture (present : List NodeId) : State :=
  let s := calibratingAt 5 (onSpc (fun x => { x with tag := some ⟨.boundary, 7, some 5⟩ }) capturing)
  { s with mu := { s.mu with slots := s.mu.slots.set 0 (some (entryOf 0x2FF present)) } }

theorem test_witness_CaptureCompleteCalibrates_contribution :
    ((calCapture []).spc.capture = .clocking ∧ (calCapture []).calibrating = true
      ∧ (calCapture []).spc.tag = some ⟨.boundary, 7, some 5⟩ ∧ (calCapture []).stu.startSerial = 7
      ∧ (calCapture []).selfEligible = true ∧ (calCapture []).mu.current = some 0
      ∧ (calCapture []).mu.slots[(0 : Slot)] = some (entryOf 0x2FF [])
      ∧ inSet (entryOf 0x2FF []).present (calCapture []).ownId = false
      ∧ insertId (entryOf 0x2FF []).present (calCapture []).ownId ≠ (entryOf 0x2FF []).expected)
    ∧ ((calCapture [2, 9]).SelfLaw ∧ (calCapture [2, 9]).selfEligible = true
      ∧ (calCapture [2, 9]).mu.slots[(0 : Slot)] = some (entryOf 0x2FF [2, 9])
      ∧ inSet (entryOf 0x2FF [2, 9]).present (calCapture [2, 9]).ownId = false
      ∧ insertId (entryOf 0x2FF [2, 9]).present (calCapture [2, 9]).ownId = (entryOf 0x2FF [2, 9]).expected)
    ∧ ((calCapture [5]).mu.slots[(0 : Slot)] = some (entryOf 0x2FF [5])
      ∧ inSet (entryOf 0x2FF [5]).present (calCapture [5]).ownId = true)
    ∧ (let s := onSpc (fun x => { x with tag := some ⟨.boundary, 6, some 5⟩ }) (calCapture [])
       s.spc.capture = .clocking ∧ s.calibrating = true ∧ s.spc.tag = some ⟨.boundary, 6, some 5⟩ ∧ s.stu.startSerial = 7) := by
  refine ⟨?_, ?_, ?_, ?_⟩ <;> decide +kernel

/-- R137, R138: the contribution of a calibration capture is filed and placed with the CAL flag and no samples. -/
theorem test_calibration_contribution_is_filed_and_placed :
    (after (.captureComplete someLines) (calCapture [])).map (fun t =>
        (t.mu.slots[(0 : Slot)].map (·.contributions), t.bac.scanItems.map (·.frame), t.stu.formed))
      = some (some [{ node := 5, cal := true }], [⟨0x2FF, { node := 5, cal := true }⟩], true) := by decide +kernel

theorem test_witness_CaptureCompleteCalibrates_evaluation :
    ((lastCalCapture ⟨0, 128000000⟩).spc.capture = .clocking ∧ (lastCalCapture ⟨0, 128000000⟩).calibrating = true
      ∧ tagCount (lastCalCapture ⟨0, 128000000⟩).spc.tag = some 40)
    ∧ (∀ c : Channel, passes (evaluateChannel ((lastCalCapture ⟨0, 128000000⟩).param .width)
        ⟨0, 128000000 + (lastCalCapture ⟨0, 128000000⟩).coded
          ((lastCalCapture ⟨0, 128000000⟩).rawValues someLines) c⟩) = true)
    ∧ (∀ c : Channel, passes (evaluateChannel ((lastCalCapture ⟨0, 0⟩).param .width)
        ⟨0, 0 + (lastCalCapture ⟨0, 0⟩).coded ((lastCalCapture ⟨0, 0⟩).rawValues someLines) c⟩) = false) := by
  refine ⟨?_, ?_, ?_⟩ <;> decide +kernel

/-- Node 5 waiting for channel 1 in the accumulation scan of count 5, with the given nodes present and the given SCAN part. -/
def timingOut (present : List NodeId) (scans : List ScanItem) : State :=
  let s := calibratingAt 5 (onBac (fun b => { b with scanItems := scans })
    (onSpc (fun x => { x with tag := some ⟨.boundary, 7, some 5⟩ }) waiting))
  { s with mu := { s.mu with slots := s.mu.slots.set 0 (some (entryOf 0x2FF present)) } }

theorem test_witness_CaptureWaitsOrTimesOut :
    (member.spc.capture ≠ .waiting ∧ member.spc.capture ≠ .strobe)
    ∧ (waiting.spc.capture = .waiting ∧ waiting.spc.tag = some ⟨.boundary, 7, none⟩ ∧ waiting.stu.startSerial = 7
      ∧ waiting.selfEligible = true ∧ waiting.mu.current = some 0
      ∧ waiting.mu.slots[(0 : Slot)] = some (entryOf 0x2FF [])
      ∧ inSet (entryOf 0x2FF []).present waiting.ownId = false
      ∧ insertId (entryOf 0x2FF []).present waiting.ownId ≠ (entryOf 0x2FF []).expected
      ∧ waiting.SelfLaw ∧ waiting.bac.scanItems.length < 4)
    ∧ ((timingOut [2, 9] fourItems).spc.tag = some ⟨.boundary, 7, some 5⟩ ∧ (timingOut [2, 9] fourItems).SelfLaw
      ∧ (timingOut [2, 9] fourItems).calibrating = true ∧ (timingOut [2, 9] fourItems).selfEligible = true
      ∧ (timingOut [2, 9] fourItems).spc.capture = .waiting
      ∧ (timingOut [2, 9] fourItems).mu.slots[(0 : Slot)] = some (entryOf 0x2FF [2, 9])
      ∧ insertId (entryOf 0x2FF [2, 9]).present (timingOut [2, 9] fourItems).ownId = (entryOf 0x2FF [2, 9]).expected)
    ∧ (let s := calibratingAt 5 (onSpc (fun x => { x with tag := some ⟨.boundary, 6, some 5⟩ }) waiting)
       s.spc.capture = .waiting ∧ s.spc.tag = some ⟨.boundary, 6, some 5⟩ ∧ s.stu.startSerial = 7
         ∧ s.calibrating = true ∧ (1 : Channel).val < s.param .channels ∧ s.spc.ready[(1 : Channel)] = false
         ∧ ∀ d : Channel, d < 1 → s.spc.ready[d] = true)
    ∧ (∀ s ∈ [unheld waiting, present5 waiting, unheld (timingOut [] []), timingOut [5] fourItems],
        s.spc.capture = .waiting ∧ s.spc.tag.any (fun tag => decide (tag.serial = s.stu.startSerial ∧ tag.kind ≠ .solo))
        ∧ s.selfEligible = true
        ∧ ∀ i : Slot, s.mu.current = some i → ∀ e ∈ s.mu.slots[i], inSet e.present s.ownId = true)
    ∧ (onSpc (fun x => { x with capture := .strobe }) member).spc.capture = .strobe
    ∧ (let s := onCs (fun c => { c with committed := c.committed.set 1 3 }) waiting
       s.spc.capture = .waiting ∧ (2 : Channel).val < s.param .channels ∧ s.spc.sdata[(2 : Channel)] = true
         ∧ s.param .channels ≤ (3 : Channel).val)
    ∧ (let s := onSpc (fun x => { x with sdata := #v[true, false, true, true] }) waiting
       s.spc.capture = .waiting ∧ (1 : Channel).val < s.param .channels ∧ s.spc.sdata[(1 : Channel)] = false)
    ∧ ((withPins [.sdata 1 true] waiting).pending = [] ∧ (withPins [.sdata 1 true] waiting).pins = .sdata 1 true :: [])
    ∧ ((withPins [.sclkPulse] capturing).pins = .sclkPulse :: [] ∧ capturing.hpu.resetnLow = false
      ∧ capturing.spc.capture = .clocking ∧ capturing.spc.clocked.length < capturing.param .width) := by
  refine ⟨?_, ?_, ?_, ?_, ?_, ?_, ?_, ?_, ?_, ?_⟩ <;> decide +kernel

/-- R133: a line that is low at the end of the CONVERT pulse makes its channel ready only after it has gone high and low
again; one that was high makes it ready at its fall, and the last one starts the clocking. -/
theorem test_line_low_at_the_end_of_the_pulse :
    let strobe := fun high : Bool => onSpc (fun x => { x with
      capture := .strobe, ready := #v[true, false, true, true], sdata := #v[true, high, true, true] }) capturing
    let ended := fun high : Bool => (after .convertPulseEnd (strobe high)).getD (strobe high)
    let seen := fun t : State => (t.spc.capture, t.spc.ready[(1 : Channel)])
    (after (.channelReady 1) (ended false)).map seen = some (.waiting, false)
    ∧ (after (.channelReady 1) (pinEvent (.sdata 1 true) (ended false))).map seen = some (.clocking, true)
    ∧ (after (.channelReady 1) (ended true)).map seen = some (.clocking, true) := by decide +kernel

/-- R138, R143, R121: the timeout in an accumulation scan of a member hands its FAULT contribution on, completes the entry,
drops the oldest SCAN frame of a full part, and ends the calibration. -/
theorem test_timeout_in_an_accumulation_scan :
    (after .sampleTimeout (timingOut [2, 9] fourItems)).map (fun t =>
        (t.spc.result, t.rcu.queue.map (·.kind), t.bac.scanItems.length, t.counter .scanTxDropped))
      = some (.fail .fault 1, [.complete], 4, 1)
    ∧ (after .sampleTimeout (timingOut [] [])).map (fun t =>
        (t.spc.result, t.mu.slots[(0 : Slot)].map (·.present), t.bac.scanItems.length, t.counter .sampleFaults))
      = some (.fail .fault 1, some 0x20, 1, 1) := by decide +kernel

theorem test_witness_CalibrateCommand :
    (configured.hpu.resetnLow = false ∧ configured.calibrating = false ∧ configured.acu.state = .configured)
    ∧ (member.hpu.resetnLow = false ∧ member.calibrating = false ∧ member.acu.state = .member)
    ∧ ((soloAt 3).calibrating = true ∧ joining.acu.state ≠ .configured ∧ joining.acu.state ≠ .member) := by
  decide +kernel

/-- Is `r` the product (x − offset) × G over 65,536, rounded to the nearest, halves away from zero? -/
def isRounded (c : Correction) (x r : Int) : Bool :=
  let product := (x - c.offset) * c.gain
  decide (2 * (65536 * r - product).natAbs < 65536)
    || (decide (2 * (65536 * r - product).natAbs = 65536) && decide (product.natAbs < 65536 * r.natAbs))

theorem test_witness_CorrectionRoundsAndSaturates :
    (member.param .width = 24 ∧ member.param .coding = 0
      ∧ member.coded #v[0x7FFFFF, 0x800000, 0xFFFFFF, 0] 0 = 8388607 ∧ member.coded #v[0x7FFFFF, 0x800000, 0xFFFFFF, 0] 1 = -8388608)
    ∧ (let s := onCs (fun c => { c with committed := c.committed.set 3 1 }) member
       s.param .coding = 1 ∧ s.coded #v[0, 0xFFFFFF, 0, 0] 0 = -8388608 ∧ s.coded #v[0, 0xFFFFFF, 0, 0] 1 = 8388607)
    ∧ isRounded ⟨0, 32768⟩ 1 1 = true ∧ isRounded ⟨0, 32768⟩ (-1) (-1) = true
    ∧ isRounded ⟨0, 131072⟩ 16384 32768 = true ∧ isRounded ⟨1, 131072⟩ (-16384) (-32770) = true
    ∧ ¬((Int.tdiv (16 * 4097) 16).natAbs ≤ 2 ^ (16 - 1) / 8) ∧ (Int.tdiv (16 * 4096) 16).natAbs ≤ 2 ^ (16 - 1) / 8
    ∧ Int.tdiv 15 16 - Int.tdiv 0 16 ≤ 0 ∧ 0 < Int.tdiv 16 16 - Int.tdiv 0 16
    ∧ 131071 < roundHalfAway (Int.tdiv (99 * (2 ^ (16 - 1) - 1)) 100 * 65536) 1
    ∧ roundHalfAway (Int.tdiv (99 * (2 ^ (16 - 1) - 1)) 100 * 65536) 65535 < 32769
    ∧ 32769 ≤ roundHalfAway (Int.tdiv (99 * (2 ^ (16 - 1) - 1)) 100 * 65536) 32439
    ∧ roundHalfAway (Int.tdiv (99 * (2 ^ (16 - 1) - 1)) 100 * 65536) 32439 ≤ 131071 := by decide +kernel

theorem test_witness_RecordCommands_removal :
    (heldBack.hpu.resetnLow = false ∧ heldBack.HoldControlLaw ∧ heldBack.rcu.queue = [projected]
      ∧ heldBack.rcu.backlog = true ∧ ([] : List Record).length ≤ heldBack.param .queueLow
      ∧ (heldBack.hc.selfHold && !heldBack.hc.freezeReason) = true)
    ∧ (member.HoldControlLaw ∧ member.rcu.backlog = false ∧ member.rcu.queue = [])
    ∧ (let s := onHc (fun h => { h with freezeReason := true }) heldBack
       s.HoldControlLaw ∧ s.rcu.backlog = true ∧ (s.hc.selfHold && !s.hc.freezeReason) = false)
    ∧ (let s := onRcu (fun u => { u with queue := List.replicate 10 projected }) heldBack
       s.HoldControlLaw ∧ s.param .queueLow < (s.rcu.queue.drop 1).length) := by
  refine ⟨?_, ?_, ?_, ?_⟩ <;> decide +kernel

theorem test_witness_RecordWindowAndProjection_window :
    member.hpu.resetnLow = false ∧ member.rcu.queue = [] ∧ heldBack.rcu.queue = [projected] := by decide +kernel

theorem test_witness_RecordWindowAndProjection_projection :
    (let s := onRcu (fun u => { u with projFirst := 8, projCount := 16 }) heldBack
     s.rcu.queue = [projected] ∧ s.rcu.projCount.toNat ≤ (16 : Fin 32).val ∧ (15 : Fin 32).val < s.rcu.projCount.toNat
       ∧ inSet projected.present 2 = true ∧ inSet projected.present 4 = false
       ∧ (findContribution projected.contributions 2).isSome = true ∧ s.projection 0 = some 41500
       ∧ s.projection 4 = none)
    ∧ (let s := onRcu (fun u => { u with projFirst := 127, projCount := 32 }) heldBack
       s.rcu.projFirst.toNat + (0 : Fin 32).val < 128 ∧ 128 ≤ s.rcu.projFirst.toNat + (1 : Fin 32).val)
    ∧ member.rcu.queue = [] := by
  refine ⟨?_, ?_, ?_⟩ <;> decide +kernel

theorem test_witness_CommitConfigAndParamValue_commit :
    (State.reset.hpu.resetnLow = false ∧ State.reset.acu.state = .awaitingConfig ∧ validate State.reset.cs.written = none
      ∧ State.reset.bac.line = .off ∧ State.reset.cs.written.value .autoJoin = 0)
    ∧ (let s := onCs (fun c => { c with written := c.written.set 22 1 }) State.reset
       validate s.cs.written = none ∧ s.cs.written.value .autoJoin = 1 ∧ s.stu.solo = false ∧ s.hc.selfHold = false)
    ∧ validate (onCs (fun c => { c with written := c.written.set 0 32 }) State.reset).cs.written = some (.range .nodeId)
    ∧ member.acu.state ≠ .awaitingConfig := by
  refine ⟨?_, ?_, ?_, ?_⟩ <;> decide +kernel

/-- The part in LOADING. -/
def loading : State := pinResetEffect true State.reset

/-- The bits of a byte, most significant first. -/
def bitsOf (b : Byte) : List Bool := (List.range 8).map fun j => b.getLsbD (7 - j)

/-- The part in LOADING after `cycles` cycles of ECK, with the given bytes clocked in. -/
def loadingWith (image : List Byte) (cycles : Nat) : State := onCs (fun c => { c with
  eeprom := { c.eeprom with eckCycles := cycles, bits := image.flatMap bitsOf } }) loading

/-- The same when the read has ended with these bytes. -/
def imageIn (image : List Byte) : State := loadingWith image (imageReadCycles image)

/-- An image of one record: NODE_ID 32, out of its range. -/
def imageOutOfRange : List Byte :=
  let covered : List Byte := [0xA5, 1, 1, 0, 32]
  covered ++ bytes16 (crc16 covered)

theorem test_witness_ImageReadEndOutcomes :
    member.acu.state ≠ .loading
    ∧ (loading.acu.state = .loading ∧ loading.cs.eeprom.eckCycles < imageReadCycles loading.cs.eeprom.image)
    ∧ (∀ image ∈ [[0xFF, 0xFF], imageOutOfRange, image3],
        (imageIn image).acu.state = .loading ∧ (imageIn image).cs.eeprom.eckHigh = false
        ∧ (imageIn image).cs.eeprom.image = image
        ∧ imageReadCycles (imageIn image).cs.eeprom.image ≤ (imageIn image).cs.eeprom.eckCycles)
    ∧ imageFailsAs .noImage (checkImage [0xFF, 0xFF]) = true
    ∧ validate (loadedSet (recordsOf (checkImage imageOutOfRange))) = some (.range .nodeId)
    ∧ (recordsOf (checkImage image3) = [(2, 3), (8, 4), (2, 2)]
      ∧ validate (loadedSet (recordsOf (checkImage image3))) = none
      ∧ (imageIn image3).bac.line = .off ∧ (imageIn image3).stu.solo = false ∧ (imageIn image3).hc.selfHold = false) := by
  refine ⟨?_, ?_, ?_, ?_, ?_, ?_⟩ <;> decide +kernel

/-- R150, R154: the end of the read falls due by itself once the last cycle of ECK has ended, and not one cycle before; the command
does nothing sooner, and then commits the bytes clocked in. -/
theorem test_image_end_is_due_after_the_last_cycle :
    (imageIn image3).nextDue = some (.imageReadEnd true) ∧ (loadingWith image3 127).nextDue = none
    ∧ (imageIn image3).ecsLow = false ∧ (loadingWith image3 127).ecsLow = true
    ∧ (after (.imageReadEnd true) (loadingWith image3 127)).map (·.cs.load) = some .reading
    ∧ (after (.imageReadEnd false) (imageIn image3)).map
        (fun t => (t.acu.state, t.param .channels, t.param .closeLag, t.eventSet .loadDone, t.cs.eeprom.edi))
      = some (.configured, 2, 4, true, false) := by
  refine ⟨?_, ?_, ?_, ?_, ?_, ?_⟩ <;> decide +kernel

theorem test_witness_CommitConfigAndParamValue_value :
    (State.reset.hpu.resetnLow = false ∧ State.reset.cs.load = .empty ∧ State.reset.cs.selector = 0)
    ∧ (onCs (fun c => { c with selector := 1 }) State.reset).cs.selector.toNat = Param.number .nodeId
    ∧ (onCs (fun c => { c with selector := 23 }) State.reset).cs.selector.toNat = Param.number .autoJoin
    ∧ 24 ≤ (onCs (fun c => { c with selector := 24 }) State.reset).cs.selector.toNat
    ∧ configured.cs.load ≠ .empty
    ∧ (let x : Transaction := .write 23 0x07 []
       let s := onHpu (fun h => { h with transaction := x }) (onBac (fun b => { b with resetPending := true }) member)
       s.hpu.resetnLow = false ∧ s.bac.resetPending = true ∧ s.bac.inTx = none ∧ (23 : BitVec 5).toNat = Param.number .autoJoin
         ∧ s.hpu.transaction = .write 23 0x07 [])
    ∧ (∃ low, State.reset.hpu.transaction = .idle low) := by
  refine ⟨?_, ?_, ?_, ?_, ?_, ?_, ⟨false, ?_⟩⟩ <;> decide +kernel

/-- The bounds of each parameter, with the values next to them that are refused. -/
def bounds : List (Param × List Word × List Word) := [
  (.nodeId, [0, 31], [32]), (.channels, [1, 4], [0, 5]), (.width, [16, 18, 20, 24], [15, 17, 19, 22, 25]),
  (.coding, [0, 1], [2]), (.bitRate, [2, 4, 8], [1, 3, 6, 9]), (.scanPeriod, [50, 65535], [49, 65536]),
  (.sampleTimeout, [10, 65535], [9, 65536]), (.closeLag, [1, 7], [0, 8]), (.missLimit, [1, 15], [0, 16]),
  (.rosterInterval, [8, 255], [7, 256]), (.joinLead, [2, 15], [1, 16]), (.listenTimeout, [1, 255], [0, 256]),
  (.stallLimit, [1, 255], [0, 256]), (.holdQuanta, [10, 65535], [9, 65536]), (.queueHigh, [9, 29], [1, 31]),
  (.queueLow, [0, 23], [30]), (.win0Start, [0, 31], [32]), (.win0Range, [0, 32], [33]), (.win1Start, [0, 31], [32]),
  (.win1Range, [0, 32], [33]), (.win2Start, [0, 31], [32]), (.win2Range, [0, 32], [33]), (.autoJoin, [0, 1], [2])]

/-- A parameter alone out of its range, and alone at a cross check, in a set of defaults; every lower-numbered one passes. -/
theorem test_witness_ValidationAndDigest :
    (bounds.all fun x => x.2.1.all fun v => decide (validate (paramDefaults.set x.1.index v) = none)) = true
    ∧ (bounds.all fun x => x.2.2.all fun v =>
        decide (validate (paramDefaults.set x.1.index v) = some (.range x.1))) = true
    ∧ validate (paramDefaults.set 15 24) = some (.cross .queueLow) ∧ validate (paramDefaults.set 14 30) = some (.cross .queueHigh)
    ∧ validate ((paramDefaults.set 16 31).set 17 2) = some (.cross .win0Range)
    ∧ validate ((paramDefaults.set 18 31).set 19 2) = some (.cross .win1Range)
    ∧ validate ((paramDefaults.set 20 31).set 21 2) = some (.cross .win2Range) := by
  refine ⟨?_, ?_, ?_, ?_, ?_, ?_, ?_⟩ <;> decide +kernel

/-- An image of two records with a good CRC, whose second names no parameter. -/
def imageUnknown : List Byte :=
  let covered : List Byte := [0xA5, 2, 2, 0, 3, 24, 0, 1]
  covered ++ bytes16 (crc16 covered)

theorem test_witness_ImageReadAndChecks :
    ((([] : List Byte).getD 0 0xFF) = 0xFF ∧ imageLength [] = 2 ∧ imageReadCycles [] = 40)
    ∧ (imageFailsAs .badHeader (checkImage [0xFF, 0]) = true ∧ imageLength [0xFF, 0] = 2)
    ∧ imageLength [0xA5, 0] = 2 ∧ imageLength [0xA5, 31] = 2
    ∧ (imageLength [0xA5, 30] = 94 ∧ imageFailsAs .badChecksum (checkImage [0xA5, 1, 1, 0, 3, 0, 0]) = true)
    ∧ (imageLength image3 = 13 ∧ imageReadCycles image3 = 128)
    ∧ imageFailsAs (.unknownParam 24) (checkImage imageUnknown) = true
    ∧ (loadedSet [(2, 3), (8, 4), (2, 2)]).value .channels = 2
    ∧ (loading.cs.load = .reading ∧ loading.cs.eeprom.Lawful ∧ loading.cs.eeprom.readOver = false)
    ∧ ((imageIn image3).cs.eeprom.Lawful ∧ (imageIn image3).cs.eeprom.readOver = true
      ∧ (imageIn image3).cs.eeprom.image[2]? = some 2)
    ∧ ((withPins [.edi false] loading).pending = [] ∧ (withPins [.edi false] loading).pins = .edi false :: [])
    ∧ ((withPins [.eckEdge] loading).pending = [] ∧ (withPins [.eckEdge] loading).pins = .eckEdge :: []) := by
  refine ⟨?_, ?_, ?_, ?_, ?_, ?_, ?_, ?_, ?_, ?_, ?_, ?_⟩ <;> decide +kernel

/-- R150: EDO in the first 24 cycles is $03, $00, $00, most significant bit first. -/
theorem test_edo_sends_the_read_instruction :
    ∀ n : Fin 24, (onCs (fun c => { c with eeprom := { c.eeprom with eckCycles := n.val } }) loading).edo
      = decide (n = 6 ∨ n = 7) := by
  decide +kernel

/-- The port after a whole cycle of ECK with EDI at each of the given levels. -/
def afterCycles (levels : List Bool) (c : Cs) : Cs :=
  levels.foldl (fun c high => Cs.eckEdge (Cs.eckEdge { c with eeprom := { c.eeprom with edi := high } })) c

/-- R150: the whole read, bit by bit: 24 cycles whose levels do not count, then the image, most significant bit first, and
no cycle after the 128th; an image of another header ends at its second byte. -/
theorem test_image_is_clocked_in_bit_by_bit :
    let levels := fun image : List Byte => List.replicate 24 true ++ image.flatMap bitsOf ++ [true, true]
    let read := fun image => (afterCycles (levels image) loading.cs).eeprom
    ((read image3).eckCycles = 128 ∧ (read image3).image = image3 ∧ (read image3).readOver = true)
    ∧ ((read [0xFF, 0, 7]).eckCycles = 40 ∧ (read [0xFF, 0, 7]).image = [0xFF, 0]) := by
  refine ⟨⟨?_, ?_, ?_⟩, ?_, ?_⟩ <;> decide +kernel

/-- Logs 2 and 33: a microsecond is one cycle of ECK, its edges may also come one by one, EDI being sampled at the rising one; and
with RESETn low the read goes on (R149). -/
theorem test_edges_of_eck :
    (stepped loading).map (fun t => (t.cs.eeprom.eckCycles, t.eck)) = some (1, false)
    ∧ (let s := loadingWith [] 24
       ((stepped (withPins [.edi false] s)).bind fun t => stepped { t with pins := [.eckEdge, .edi true] }).map
         (fun t => (t.eck, t.cs.eeprom.bits, t.pins)) = some (true, [false], [.edi true]))
    ∧ (stepped (withPins [.eckEdge] (onHpu (fun h => { h with resetnLow := true }) loading))).map (·.eck) = some true := by
  refine ⟨?_, ?_, ?_⟩ <;> decide +kernel

/-- R40, log 27: a pending soft reset written with CFGSRC high, the strap then going low, leads to AWAITING_CONFIG. -/
theorem test_cfgsrc_is_read_as_the_reset_takes_effect :
    (after (.softReset true) (sendingFrame (.hold 5 0))).map (fun t => (t.cs.cfgsrc, t.bac.resetPending)) = some (true, true)
    ∧ (let s := onCs (fun c => { c with cfgsrc := true }) (onBac (fun b => { b with resetPending := true }) member)
       s.nextDue = some (.softResetTakesEffect true)
       ∧ (stepped (withPins [.cfgsrc false] s)).map (fun t => (t.cs.cfgsrc, t.nextDue))
         = some (false, some (.softResetTakesEffect false))) := by
  refine ⟨?_, ?_, ?_⟩ <;> decide +kernel

theorem test_witness_EventsMaskAndStatistics :
    member.hpu.resetnLow = false ∧ 28 ≤ (onHpu (fun h => { h with statSel := 28 }) member).hpu.statSel.toNat
    ∧ (onHpu (fun h => { h with statSel := 27 }) member).hpu.statSel.toNat = (Counter.index .sampleFaults).val
    ∧ member.hpu.statSel.toNat = (Counter.index .framesRxGood).val := by decide +kernel

theorem test_witness_ViewSelectorsAndReads : member.hpu.resetnLow = false := by decide +kernel

theorem test_witness_RegisterWriteByAddress :
    member.hpu.resetnLow = false ∧ hasOwnWriteRow 0x00 = false ∧ hasOwnWriteRow 0x7F = false
    ∧ (0 : Word) = 0 ∧ 9 < (10 : Word).toNat := by decide +kernel

/-- The state with the port's transaction as given and one pin change waiting. -/
def atPins (x : Transaction) (e : PinEvent) (s : State) : State :=
  withPins [e] (onHpu (fun h => { h with transaction := x }) s)

/-- What the step makes of the transaction. -/
def moves (x : Transaction) (e : PinEvent) (s : State) : Option Transaction :=
  (stepped (atPins x e s)).map (·.hpu.transaction)

theorem test_witness_PortTransactionByPins :
    (let s := atPins (.idle false) .hselnFall member
     s.pending = [] ∧ s.pins = .hselnFall :: [] ∧ s.hpu.resetnLow = false)
    ∧ (let s := atPins (.idle false) .hselnFall (onHpu (fun h => { h with resetnLow := true }) member)
       s.hpu.resetnLow = true ∧ s.hsdo = .highZ)
    ∧ ((List.replicate 6 false).length < 7 ∧ (List.replicate 7 true).length = 7 ∧ (List.replicate 30 false).length < 31)
    ∧ (∀ i : Fin 7, (0x09 : BitVec 7).getMsbD i.val
        = ([true, false, false, false, true, false, false] ++ [true]).getD (i.val + 1) false)
    ∧ (∀ i : Fin 32, (3 : Word).getMsbD i.val = (List.replicate 30 false ++ [true] ++ [true]).getD i.val false) := by
  refine ⟨?_, ?_, ?_, ?_, ?_⟩ <;> decide +kernel

/-- R161: from HSELn falling to the 8th edge, and the 40th; and HSELn rising in the middle of a write. -/
theorem test_port_moves_at_the_edges :
    moves (.idle false) .hselnFall member = some (.address 0 [])
    ∧ moves (.idle true) .hselnFall member = some (.idle true)
    ∧ moves (.address 3 []) (.hsckRise true) member = some (.address 3 [true])
    ∧ moves (.address 3 [false, false, false, false, true, false, false]) (.hsckRise false) member = some (.write 3 0x08 [])
    ∧ moves (.address 3 [true, false, false, false, false, false, false]) (.hsckRise false) member = some (.read 0)
    ∧ moves (.write 3 0x08 []) .hselnRise member = some (.idle false)
    ∧ moves (.read 31) .hsckFall member = some (.read 32) ∧ moves (.read 32) .hsckFall member = some .done
    ∧ moves .done (.hsckRise true) member = some .done := by decide +kernel

/-- R89, R161: the 8th edge takes a read of the record data word, and the 40th a write of the record pointer. -/
theorem test_port_takes_reads_and_writes :
    (stepped (atPins (.address 0 [true, false, false, false, true, false, false]) (.hsckRise true) heldBack)).map
        (fun t => (t.hpu.readWord, t.rcu.pointer, t.hpu.transaction, t.hsdo)) = some (0x0D001A40, 1, .read 0, .driven false)
    ∧ (stepped (atPins (.write 0 0x08 (List.replicate 30 false ++ [true])) (.hsckRise true) heldBack)).map
        (fun t => (t.rcu.pointer, t.hpu.transaction)) = some (3, .done) := by decide +kernel

/-- R155, R167, log 35: a write of PARAM_VALUE that a soft reset finds in progress is stored in AWAITING_CONFIG for the
parameter PARAM_SEL named when it began; one that begins after the reset finds PARAM_SEL at 0. -/
theorem test_param_write_across_a_soft_reset :
    let x : Transaction := .write 2 0x07 (List.replicate 31 false)
    let r := after (.softResetTakesEffect false) (onHpu (fun h => { h with transaction := x })
      (onBac (fun b => { b with resetPending := true }) member))
    r.map (fun t => (t.hpu.transaction, t.acu.state, t.cs.selector)) = some (x, .awaitingConfig, 0)
    ∧ (r.bind fun t => stepped (atPins t.hpu.transaction (.hsckRise true) t)).map
        (fun t => (t.hpu.result, t.cs.written, t.cs.selector))
      = some (⟨.accepted, .none, .paramWrite⟩, paramDefaults.set 1 1, 0)
    ∧ (after (.paramValueWrite 1) State.reset).map (fun t => (t.hpu.result, t.cs.written))
      = some (⟨.invalid, .unknownParam 0, .paramWrite⟩, paramDefaults) := by decide +kernel

/-- R161, R167: the bits on HSDO, the most significant first, and high impedance outside a transaction. -/
theorem test_hsdo_levels :
    let s := fun x : Transaction => onHpu (fun h => { h with transaction := x, readWord := 0x80000001 }) member
    (s (.read 1)).hsdo = .driven true ∧ (s (.read 2)).hsdo = .driven false ∧ (s (.read 32)).hsdo = .driven true
    ∧ (s (.address 0 [true])).hsdo = .driven false ∧ (s .done).hsdo = .driven false ∧ (s (.idle false)).hsdo = .highZ
    ∧ (after (.pinReset false) (s (.read 4))).map (fun t => (t.hpu.transaction, t.hsdo)) = some (.idle true, .highZ)
    ∧ (after (.softReset false) (s (.write 0 4 []))).map (·.hpu.transaction) = some .done := by decide +kernel

theorem test_witness_RegisterWindowReads :
    member.rcu.queue.length ≤ 32
    ∧ (onRcu (fun u => { u with queue := List.replicate 32 projected }) member).rcu.queue.length = 32
    ∧ (State.reset.cs.selector = 0 ∧ State.reset.cs.selector.toNat ≠ Param.number .nodeId)
    ∧ (onCs (fun c => { c with selector := 23 }) member).cs.selector.toNat = Param.number .autoJoin
    ∧ (onCs (fun c => { c with selector := 24 }) member).cs.selector = 24
    ∧ 25 ≤ (onCs (fun c => { c with selector := 25 }) member).cs.selector.toNat
    ∧ member.hpu.statSel.toNat = (Counter.index .framesRxGood).val
    ∧ 28 ≤ (onHpu (fun h => { h with statSel := 28 }) member).hpu.statSel.toNat := by
  refine ⟨?_, ?_, ?_, ?_, ?_, ?_, ?_, ?_⟩ <;> decide +kernel

theorem test_witness_RecordAndViewWords :
    projected.contributions.length ≤ 32 ∧ (∀ c ∈ projected.contributions, c.samples.length ≤ 4)
    ∧ (projected.expected &&& ~~~projected.present).getLsbD (4 : NodeId).val = true
    ∧ (∀ i : NodeId, i < 4 → (projected.expected &&& ~~~projected.present).getLsbD i.val = false)
    ∧ (let r : Record := { projected with expected := 0x2C }
       r.expected &&& ~~~r.present = 0 ∧ r.words.getD 3 0 = 0x0F0000FF)
    ∧ memberViewWord 5 5 { membership := .departing 0x100 0x300, missCount := 2, hold := 7, lastHeard := some 9 } 0
      = 0x0007022F
    ∧ mergeViewWord 3 ⟨some (0x300, 0x224, 0x24), true⟩ 0 = 0xF ∧ mergeViewWord 3 ⟨none, false⟩ 1 = 0xFFFFFFFF := by
  refine ⟨?_, ?_, ?_, ?_, ?_, ?_, ?_, ?_⟩ <;> decide +kernel

theorem test_witness_AbsentEntriesHoldNothing : member.HoldLaw ∧ ∃ t, step member = .next t :=
  ⟨test_member_lawful.2.2.1, _, rfl⟩

theorem test_witness_BusLawKept : member.BusLaw ∧ ∃ t, step member = .next t := ⟨test_member_lawful.2.2.2, _, rfl⟩

theorem test_witness_HoldControlLawKept :
    (heldBack.HoldControlLaw ∧ ∃ t, step heldBack = .next t) ∧ member.HoldControlLaw :=
  ⟨⟨by decide +kernel, _, rfl⟩, test_member_lawful.2.1⟩

theorem test_witness_ArrayLawKept : member.BusLaw ∧ member.ArrayLaw ∧ ∃ t, step member = .next t :=
  ⟨test_member_lawful.2.2.2, test_member_lawful.1, _, rfl⟩

theorem test_witness_OpenEntriesBounded :
    member.ArrayLaw ∧ (member.mu.slots.toList.filter (·.isSome)).length = member.param .closeLag + 1
    ∧ member.mu.oldestFirst (fun _ _ => true) = [1, 2, 0] ∧ member.mu.othersOldestFirst.map (·.scan) = [0x2FD, 0x2FE] :=
  ⟨test_member_lawful.1, by decide +kernel, by decide +kernel, by decide +kernel⟩

theorem test_witness_ReleaseAndIndexLaws :
    (after .scanPeriodExpiry (onStu (fun u => { u with formed := true }) holdingGate)).map (·.stu.gate)
      = some (.released .wait)
    ∧ (after (.boundary {}) member).map (fun t => (t.stu.index, t.counter .boundaries)) = some (0x300, 1)
    ∧ (after .scanFrameTaken realigning).map (·.stu.index) = some 0x310
    ∧ (after (.listenTimerExpiry false) (onStu (fun u => { u with index := 9 }) listening)).map
        (fun t => (t.acu.state, t.stu.index)) = some (.member, 0)
    ∧ (after (.registerWrite 0x04 9) member).map (·.stu.index) = some 0 ∧ canReset (.registerWrite 0x04 9) = true := by
  refine ⟨?_, ?_, ?_, ?_, ?_, ?_⟩ <;> decide +kernel

theorem test_witness_QueueTableAndSetKept :
    (after .releaseRecord heldBack).map (·.rcu.queue) = some []
    ∧ (after (.registerWrite 0x04 4) heldBack).map (·.rcu.queue) = some []
    ∧ hostCommandOf (.registerWrite 0x04 4) = some .releaseRecord ∧ hostCommandOf (.unknownCommand 5) = some .flushRecords
    ∧ (after (.captureComplete someLines) (lastCalCapture ⟨0, 128000000⟩)).map (fun t => (t.spc.result, t.spc.table[(0 : Channel)]))
      = some (.pass, ⟨0, 68032⟩)
    ∧ (after .commitConfig (onCs (fun c => { c with written := set5 }) State.reset)).map (·.cs.committed) = some set5 := by
  refine ⟨?_, ?_, ?_, ?_, ?_, ?_⟩ <;> decide +kernel

end Sys2Proof.Tests
end

/-! SUPPORT. The array states of a node (chapter 3): what JOIN and LEAVE do, settled from one rule for each operation they
share. -/
namespace Sys2Proof.ArrayStates

open Sys2Proof Sys2Proof.Machine

/-! ### The port (R161, R165, R166) -/

/-- With RESETn released, the command is the block's own effect on the state whose port has taken it. -/
theorem hostCommand_eq {s : State} (hr : s.hpu.resetnLow = false) (c : HostCommand) (f : State → State) :
    hostCommand c f s = f (commandTaken (BitVec.ofNat 32 c.code) s) := by
  simp [hostCommand, onPort, hr]

/-- The state once the port has taken the command and answered it: the port's own state and nothing else. -/
def answered (c : HostCommand) (code : ResultCode) (s : State) : State :=
  { s with hpu := s.portAfter c ⟨code, .none, .command c⟩ }

section
variable (c : HostCommand) (code : ResultCode) (s : State)

@[simp] theorem answered_acu : (answered c code s).acu = s.acu := rfl
@[simp] theorem answered_ownId : (answered c code s).ownId = s.ownId := rfl
@[simp] theorem answered_member (k : NodeId) : (answered c code s).member k = s.member k := rfl

end

/-- A command taken and answered changes the port alone, also with a soft reset pending (R166). -/
theorem answer_commandTaken (c : HostCommand) (code : ResultCode) (s : State) :
    answer c code (commandTaken (BitVec.ofNat 32 c.code) s) = answered c code s := by
  by_cases hp : s.bac.resetPending = true <;>
    simp [answered, answer, placeResult, commandTaken, State.portAfter, State.resultAfter, State.withHpu, hp]

/-! ### Self-hold and the release of GATE (R7, R103) -/

/-- Where the gate driver takes no part and self-hold is not active, the test of self-hold changes nothing. -/
theorem testSelfHold_eq_self {s : State} (hg : s.stu.gate.takesPart = false) (hh : s.hc.selfHold = false) :
    testSelfHold s = s := by
  simp [testSelfHold, State.selfHoldCondition, hg, hh]

/-- Under the law of the Hold Controller, no self-hold is active while the gate driver takes no part. -/
theorem selfHold_eq_false {s : State} (h : s.HoldControlLaw) (hg : s.stu.gate.takesPart = false) :
    s.hc.selfHold = false := by
  obtain ⟨-, hself, -, -⟩ := h
  simp [hself, State.selfHoldCondition, hg]

/-- The test of the release conditions touches the gate driver and the stall timer, when the conditions hold. -/
theorem testRelease_stu (s : State) :
    (testRelease s).stu =
      if s.mayRelease then { s.stu with gate := .released .wait, stall := s.restartedStall } else s.stu := by
  unfold testRelease
  split <;> simp [releaseGate]

theorem mayRelease_iff (s : State) :
    s.mayRelease = true ↔ s.stu.gate = .holding ∧ s.stu.period = .expired
      ∧ (s.stu.formed = true ∨ s.selfEligible = false) ∧ s.hc.selfHold = false := by
  simp [State.mayRelease, and_assoc, or_comm]

/-! ### The self entry (R21) -/

/-- The state with the self entry in place, before any test of the release conditions. -/
def withSelf (m : Membership) (s : State) : State :=
  s.withRu { s.ru with members := s.ru.members.set s.ownId { membership := m } }

theorem withSelf_member_own (m : Membership) (s : State) : (withSelf m s).member s.ownId = { membership := m } := by
  simp [withSelf, State.member]

theorem withSelf_member_peer (m : Membership) (s : State) {k : NodeId} (hk : k ≠ s.ownId) :
    (withSelf m s).member k = s.member k := by
  have hne : s.ownId.val ≠ k.val := fun h => hk (Fin.ext h.symm)
  simp [withSelf, State.member, Vector.getElem_set_ne, hne]

/-- With its new entry the node is eligible for the current index as the entry says. -/
theorem withSelf_selfEligible (m : Membership) (s : State) :
    (withSelf m s).selfEligible = m.eligible s.stu.index :=
  congrArg (fun x : Member => x.membership.eligible s.stu.index) (withSelf_member_own m s)

/-- An entry that keeps its state and scans calls for no test of the release conditions. -/
theorem setSelf_same {m : Membership} {s : State} (hm : (s.member s.ownId).membership = m) :
    setSelf m s = withSelf m s := if_pos hm

theorem setSelf_changed {m : Membership} {s : State} (hm : (s.member s.ownId).membership ≠ m) :
    setSelf m s = testRelease (withSelf m s) := if_neg hm

theorem setSelf_ru (m : Membership) (s : State) : (setSelf m s).ru = (withSelf m s).ru := by
  by_cases hm : (s.member s.ownId).membership = m
  · rw [setSelf_same hm]
  · rw [setSelf_changed hm]
    simp

/-- R7: GATE would be let go with the entry `m` in place. -/
abbrev ReleasesAs (m : Membership) (s : State) : Prop :=
  s.stu.gate = .holding ∧ s.stu.period = .expired ∧ (s.stu.formed = true ∨ m.eligible s.stu.index = false)
    ∧ s.hc.selfHold = false

theorem withSelf_mayRelease (m : Membership) (s : State) : (withSelf m s).mayRelease = true ↔ ReleasesAs m s := by
  rw [mayRelease_iff, withSelf_selfEligible]
  rfl

/-- A changed self entry: the release conditions are tested with the entry as it then stands. -/
theorem setSelf_stu {m : Membership} {s : State} (hm : (s.member s.ownId).membership ≠ m) :
    (setSelf m s).stu =
      if ReleasesAs m s then { s.stu with gate := .released .wait, stall := (withSelf m s).restartedStall }
      else s.stu := by
  rw [setSelf_changed hm, testRelease_stu]
  exact if_congr (withSelf_mayRelease m s) rfl rfl

/-! ### Calibration (R10, R144, R145) -/

theorem soloOff_eq_self {s : State} (h : s.stu.solo = false) : soloOff s = s := by
  simp [soloOff, h]

theorem eventSet_raiseEvent (e : Event) (s : State) : (raiseEvent e s).eventSet e = true := by
  cases e <;> simp [raiseEvent, State.eventSet, Event.position]

/-- With solo pacing off, the end of a calibration leaves the STU. -/
theorem abortCalibration_stu {s : State} (h : s.stu.solo = false) : (abortCalibration s).stu = s.stu := by
  unfold abortCalibration endCalibration
  split
  · rw [soloOff_eq_self] <;> simp [h]
  · rfl

theorem abortCalibration_calibrating (s : State) : (abortCalibration s).calibrating = false := by
  unfold abortCalibration
  split
  · simp [endCalibration, State.calibrating]
  · next h => simpa using h

theorem abortCalibration_aborted {s : State} (h : s.calibrating = true) :
    (abortCalibration s).spc.result = .aborted ∧ (abortCalibration s).eventSet .calDone = true := by
  have heq : abortCalibration s = endCalibration .aborted s := by simp [abortCalibration, h]
  have hraised := eventSet_raiseEvent .calDone (s.withSpc { s.spc with
    result := .aborted, insel := .normal, phase := .idle, count := 0, sums := Vector.replicate 4 ⟨0, 0⟩ })
  rw [heq]
  constructor
  · simp [endCalibration]
  · simpa [endCalibration, State.eventSet] using hraised

/-! ### The merge table with no OPEN entry (R77) -/

theorem flushTable_eq_self {s : State} (hs : ∀ i : Slot, s.mu.slots[i] = none) (hc : s.mu.current = none) :
    flushTable s = s := by
  have hnone : s.mu.oldestFirst (fun _ _ => true) = [] :=
    List.eq_nil_iff_forall_not_mem.mpr fun i hi => by
      obtain ⟨e, he, -⟩ := (s.mu.mem_oldestFirst _ i).mp hi
      simp [hs i] at he
  have hclosed : closeAll .flushed (fun _ _ => true) s = s := by simp [closeAll, hnone]
  have hmu : { s.mu with current := none } = s.mu := by rw [← hc]
  simp only [flushTable, hclosed, hmu, State.withMu]

/-- Outside JOINING, MEMBER and LEAVING no slot is OPEN and no entry is the current one. -/
theorem mergeTable_empty {s : State} (h : s.MergeLaw) (ha : s.acu.state.inArray = false) :
    (∀ i : Slot, s.mu.slots[i] = none) ∧ s.mu.current = none := by
  obtain ⟨hopen, -, hcur⟩ := h
  have hslots : ∀ i : Slot, s.mu.slots[i] = none := fun i => by
    refine Option.eq_none_iff_forall_not_mem.mpr fun e he => ?_
    obtain ⟨-, -, harr⟩ := hopen i e he
    simp [ha] at harr
  refine ⟨hslots, Option.eq_none_iff_forall_not_mem.mpr fun i hi => ?_⟩
  have := hcur i hi
  simp [hslots i] at this

/-! ### JOIN (R44, R60) -/

/-- R44: entering LISTENING with neither solo pacing nor self-hold on touches the gate driver and the ACU alone. -/
theorem enterListening_eq {s : State} (hsolo : s.stu.solo = false) (hh : s.hc.selfHold = false) :
    enterListening s = { s with
      stu := { s.stu with gate := .observing }
      acu := { s.acu with state := .listening, listen := .running 0, admission := none, matchingSeen := false,
                          mismatchingSeen := false, reason := .none } } := by
  simp only [enterListening, moveGate, soloOff_eq_self hsolo]
  rw [testSelfHold_eq_self]
  · rfl
  · rfl
  · exact hh

/-- R60: the two answers to JOIN, as whole next states but for what entering LISTENING does. -/
theorem exec_join {s : State} (hr : s.hpu.resetnLow = false) :
    exec .join s = .next (if s.acu.state = .configured ∧ s.calibrating = false then
      enterListening (answered .join .accepted s) else answered .join .wrongState s) := by
  show Host.Outcome.next (hostCommand .join takeJoin s) = _
  rw [hostCommand_eq hr, takeJoin, answer_commandTaken, answer_commandTaken]
  rfl

/-- Settles O15: the laws leave neither solo pacing nor self-hold on in CONFIGURED with no calibration in progress. -/
theorem joinCommand : Obligations.JoinCommand := by
  intro s hr
  rw [exec_join hr]
  constructor
  · rintro hconf hcal ⟨-, -, ⟨hgate, -⟩, -, ⟨-, hsolo, -⟩, -⟩ hhold
    obtain ⟨hdetached, -⟩ := hgate (by simp [hconf, ArrayState.offGate])
    have hoff : s.stu.solo = false := by simpa [hcal] using hsolo
    have hself := selfHold_eq_false hhold (by simp [hdetached, GateDriver.takesPart])
    rw [if_pos ⟨hconf, hcal⟩, enterListening_eq (s := answered .join .accepted s) hoff hself]
    rfl
  · intro h
    rw [if_neg (by simpa [imp_iff_not_or] using h)]
    rfl

/-! ### LEAVE in LISTENING (R43, R53) -/

/-- The law of R21 in LISTENING: neither J nor L is set, the drain is off and the self entry is ABSENT. -/
theorem selfLaw_listening {s : State} (h : s.SelfLaw) (hstate : s.acu.state = .listening) :
    s.acu.joinScan = none ∧ s.acu.leaveScan = none ∧ s.acu.drain = false
      ∧ (s.member s.ownId).membership = .absent := by
  obtain ⟨-, ⟨hjoin, hleave⟩, hdrain, -, habsent, -⟩ := h
  rw [hstate] at hjoin hleave hdrain habsent
  exact ⟨Option.not_isSome_iff_eq_none.mp (by rw [hjoin]; decide),
    Option.not_isSome_iff_eq_none.mp (by rw [hleave]; decide), by simpa using hdrain, habsent rfl⟩

/-- R43: CONFIGURED entered from LISTENING: J, L and the drain stay as they were, and nothing is tested or told. -/
theorem restInConfigured_listening {s : State} (hstate : s.acu.state = .listening) (hlaw : s.SelfLaw)
    (hh : s.hc.selfHold = false) :
    restInConfigured s = { s with
      stu := { s.stu with gate := .detached, take := .clear, guard := .stopped, stall := .stopped,
                          stallFlag := false, period := .stopped }
      ru := (withSelf .absent s).ru
      bac := { s.bac with rosterItem := none }
      acu := { s.acu with state := .configured, listen := .stopped, admission := none, matchingSeen := false,
                          mismatchingSeen := false, refusalPending := false } } := by
  obtain ⟨hj, hl, hd, hown⟩ := selfLaw_listening hlaw hstate
  rw [restInConfigured, setSelf_same, detachGate, testSelfHold_eq_self]
  · simp only [withdrawRoster, withSelf, State.withStu, State.withRu, State.withBac, State.withAcu, State.ownId,
      State.param, hj, hl, hd]
  · rfl
  · exact hh
  · exact hown

/-- R53: from LISTENING there is nothing to flush. -/
theorem enterConfigured_listening {s : State} (hstate : s.acu.state = .listening) (hmerge : s.MergeLaw) :
    enterConfigured s = restInConfigured s := by
  obtain ⟨hslots, hcur⟩ := mergeTable_empty hmerge (by rw [hstate]; rfl)
  exact flushTable_eq_self (by simpa using hslots) (by simpa using hcur)

/-! ### Leaving with an announcement (R54, R55) -/

/-- The common part of R54 and R55: a calibration in progress is aborted, the ACU stands as `a`, the self entry becomes
`m`, and a ROSTER frame is requested. -/
def departAs (m : Membership) (a : Acu) (s : State) : State :=
  requestRoster (setSelf m ((abortCalibration s).withAcu a))

/-- R55: the scan that is JOIN_LEAD ahead of the current index. -/
abbrev leadScan (s : State) : Scan := s.stu.index + BitVec.ofNat 24 (s.param .joinLead)

theorem leaveJoining_eq {s : State} {j : Scan} (hj : s.acu.joinScan = some j) :
    leaveJoining s = departAs (.departing j j)
      { s.acu with state := .leaving, leaveScan := some j, joinScan := none, refusalPending := false } s := by
  simp [leaveJoining, departAs, hj]

theorem leaveMember_eq {s : State} {f : Scan} (hf : (s.member s.ownId).membership = .active f) :
    leaveMember s = departAs (.departing f (leadScan s))
      { s.acu with state := .leaving, leaveScan := some (leadScan s) } s := by
  simp [leaveMember, departAs, hf, Membership.fromScan?]

section
variable (m : Membership) (a : Acu) (s : State)

/-- What a departure leaves: the merge table, the records, the correction table and the command result. -/
theorem departAs_frame :
    (departAs m a s).mu = s.mu ∧ (departAs m a s).rcu = s.rcu
      ∧ (departAs m a s).spc.table = s.spc.table ∧ (departAs m a s).hpu.result = s.hpu.result := by
  simp [departAs]

theorem departAs_acu : (departAs m a s).acu = a := by
  simp [departAs]

theorem requestRoster_isSome : (requestRoster s).bac.rosterItem.isSome = true := by
  unfold requestRoster
  split <;> simp [*]

theorem departAs_rosterItem : (departAs m a s).bac.rosterItem.isSome = true :=
  requestRoster_isSome _

/-- Neither the aborted calibration nor the ROSTER request touches the table. -/
theorem departAs_member (k : NodeId) : (departAs m a s).member k = (withSelf m s).member k := by
  simp [departAs, State.member, setSelf_ru, withSelf, State.ownId, State.param]

theorem departAs_member_own : (departAs m a s).member s.ownId = { membership := m } := by
  rw [departAs_member, withSelf_member_own]

theorem departAs_member_peer {k : NodeId} (hk : k ≠ s.ownId) : (departAs m a s).member k = s.member k := by
  rw [departAs_member, withSelf_member_peer m s hk]

/-- R144: a calibration in progress ends ABORTED. -/
theorem departAs_calibration :
    (departAs m a s).calibrating = false
      ∧ (s.calibrating = true →
        (departAs m a s).spc.result = .aborted ∧ (departAs m a s).eventSet .calDone = true) := by
  have hspc : (departAs m a s).spc = (abortCalibration s).spc := by simp [departAs]
  have hhpu : (departAs m a s).hpu = (abortCalibration s).hpu := by simp [departAs]
  rw [State.calibrating, hspc, State.eventSet, hhpu]
  exact ⟨abortCalibration_calibrating s, abortCalibration_aborted⟩

end

/-- A departure acts on the STU by the release of GATE alone, tested with the entry it leaves the node with. -/
theorem departAs_stu {m : Membership} {s : State} (a : Acu) (hsolo : s.stu.solo = false)
    (hm : (s.member s.ownId).membership ≠ m) :
    ∃ stall, (departAs m a s).stu =
      if ReleasesAs m s then { s.stu with gate := .released .wait, stall := stall } else s.stu := by
  have hown : (((abortCalibration s).withAcu a).member ((abortCalibration s).withAcu a).ownId).membership ≠ m := by
    simpa [State.member, State.ownId, State.param] using hm
  have h := setSelf_stu hown
  simp only [ReleasesAs, State.withAcu_stu, State.withAcu_hc, abortCalibration_stu hsolo] at h
  exact ⟨_, by simpa [departAs] using h⟩

/-- R7 at a departure: the three ways in which the statements say what becomes of the STU. -/
theorem departAs_gate {m : Membership} {s : State} (a : Acu) (hsolo : s.stu.solo = false)
    (hm : (s.member s.ownId).membership ≠ m) :
    (s.stu.gate ≠ .holding → (departAs m a s).stu = s.stu)
      ∧ (departAs m a s).stu
        = { s.stu with gate := (departAs m a s).stu.gate, stall := (departAs m a s).stu.stall }
      ∧ (departAs m a s).stu.gate = if ReleasesAs m s then .released .wait else s.stu.gate := by
  obtain ⟨stall, hstu⟩ := departAs_stu a hsolo hm
  rw [hstu]
  split_ifs with hrel
  · obtain ⟨hhold, -⟩ := hrel
    exact ⟨fun hnot => absurd hhold hnot, rfl, rfl⟩
  · exact ⟨fun _ => rfl, rfl, rfl⟩

/-- What a departure on LEAVE with the entry `m` and the ACU at `a` does: the common part of R54 and R55. -/
structure Departed (m : Membership) (a : Acu) (s t : State) : Prop where
  acu : t.acu = a
  own : t.member s.ownId = { membership := m }
  peers : ∀ k : NodeId, k ≠ s.ownId → t.member k = s.member k
  rosterItem : t.bac.rosterItem.isSome = true
  result : t.hpu.result = s.resultAfter ⟨.accepted, .none, .command .leave⟩
  calibrating : t.calibrating = false
  aborted : s.calibrating = true → t.spc.result = .aborted ∧ t.eventSet .calDone = true
  table : t.spc.table = s.spc.table
  mu : t.mu = s.mu
  rcu : t.rcu = s.rcu
  stuKept : s.stu.gate ≠ .holding → t.stu = s.stu
  stu : t.stu = { s.stu with gate := t.stu.gate, stall := t.stu.stall }
  gate : t.stu.gate = if ReleasesAs m s then .released .wait else s.stu.gate

theorem departed_departAs {m : Membership} {s : State} (a : Acu) (hsolo : s.stu.solo = false)
    (hm : (s.member s.ownId).membership ≠ m) : Departed m a s (departAs m a (answered .leave .accepted s)) := by
  obtain ⟨hmu, hrcu, htable, hresult⟩ := departAs_frame m a (answered .leave .accepted s)
  obtain ⟨hcal, habort⟩ := departAs_calibration m a (answered .leave .accepted s)
  obtain ⟨hkept, hstu, hgate⟩ := departAs_gate (s := answered .leave .accepted s) a hsolo hm
  exact {
    acu := departAs_acu ..
    own := by simpa using departAs_member_own m a (answered .leave .accepted s)
    peers := fun k hk => by simpa using departAs_member_peer m a (answered .leave .accepted s) hk
    rosterItem := departAs_rosterItem ..
    result := hresult
    calibrating := hcal
    aborted := habort
    table := htable
    mu := hmu
    rcu := hrcu
    stuKept := hkept
    stu := hstu
    gate := hgate }

/-- Departed, the node is eligible for a scan as its entry says (R20). -/
theorem Departed.eligible {m : Membership} {a : Acu} {s t : State} (h : Departed m a s t) (n : Scan) :
    t.eligible s.ownId n = m.eligible n := by
  rw [State.eligible, h.own]

/-- The law of the sample port: solo pacing is off outside CONFIGURED (R10). -/
theorem solo_eq_false {s : State} (h : s.SampleLaw) (hstate : s.acu.state ≠ .configured) : s.stu.solo = false := by
  obtain ⟨-, hsolo, -⟩ := h
  by_contra hon
  obtain ⟨hconf, -⟩ := hsolo (by simpa using hon)
  exact hstate hconf

/-! ### The scans of a leaver (R11, R20, R148) -/

/-- R20: an entry that is DEPARTING from a scan until the same scan is eligible for none. -/
theorem departing_same_eligible (l n : Scan) : (Membership.departing l l).eligible n = false := by
  simp [Membership.eligible]

theorem paramInRange_of_validate {ps : ParamSet} (h : validate ps = none) (p : Param) :
    paramInRange p (ps.value p) = true := by
  have hp : paramFailure ps p = none := List.findSome?_eq_none_iff.mp h p (by cases p <;> decide)
  by_contra hout
  rw [paramFailure, if_pos (by simpa using hout)] at hp
  exact Option.some_ne_none _ hp

/-- R148: JOIN_LEAD is 2 to 15 in a valid configuration. -/
theorem joinLead_range {s : State} (h : s.ConfigLaw) : 2 ≤ s.param .joinLead ∧ s.param .joinLead ≤ 15 := by
  obtain ⟨-, -, hvalid, -⟩ := h
  simpa [paramInRange, State.param] using paramInRange_of_validate hvalid .joinLead

/-- R11: a scan is behind the scan that is JOIN_LEAD ahead of it. -/
theorem behind_add {n : Scan} {lead : Nat} (hlo : 0 < lead) (hhi : lead < Scan.tieDistance) :
    behind (n + BitVec.ofNat 24 lead) n = true := by
  unfold Scan.tieDistance at hhi
  have hdist : Scan.forward (n + BitVec.ofNat 24 lead) n = 16777216 - lead := by
    unfold Scan.forward
    bv_omega
  have hahead : ahead (n + BitVec.ofNat 24 lead) n = false := by
    simp only [ahead, hdist, Scan.tieDistance]
    rw [if_neg (by omega), if_neg (by omega), if_neg (by omega)]
  have hne : n + BitVec.ofNat 24 lead ≠ n := by bv_omega
  simp [behind, atOrBehind, hahead, hne]

/-- R55, R20: the leaver stays eligible for the current index, unless L is its from scan. -/
theorem leaver_eligible {s : State} (h : s.ConfigLaw) (f : Scan) :
    (Membership.departing f (leadScan s)).eligible s.stu.index = false ↔ leadScan s = f := by
  obtain ⟨hlo, hhi⟩ := joinLead_range h
  have hbehind := behind_add (n := s.stu.index) (lead := s.param .joinLead) (by omega)
    (by unfold Scan.tieDistance; omega)
  simp [Membership.eligible, hbehind]

/-! ### LEAVE (R61) -/

theorem exec_leave {s : State} (hr : s.hpu.resetnLow = false) :
    exec .leave s = .next (takeLeave (commandTaken (BitVec.ofNat 32 HostCommand.leave.code) s)) :=
  congrArg Host.Outcome.next (hostCommand_eq hr .leave takeLeave)

section
variable {s : State} (hr : s.hpu.resetnLow = false)
include hr

theorem exec_leave_listening (h : s.acu.state = .listening) :
    exec .leave s = .next (enterConfigured (answered .leave .accepted s)) := by
  rw [exec_leave hr, ← answer_commandTaken]
  simp [takeLeave, h]

theorem exec_leave_joining (h : s.acu.state = .joining) :
    exec .leave s = .next (leaveJoining (answered .leave .accepted s)) := by
  rw [exec_leave hr, ← answer_commandTaken]
  simp [takeLeave, h]

theorem exec_leave_member (h : s.acu.state = .member) :
    exec .leave s = .next (leaveMember (answered .leave .accepted s)) := by
  rw [exec_leave hr, ← answer_commandTaken]
  simp [takeLeave, h]

theorem exec_leave_refused (hl : s.acu.state ≠ .listening) (hj : s.acu.state ≠ .joining)
    (hm : s.acu.state ≠ .member) : exec .leave s = .next (answered .leave .wrongState s) := by
  rw [exec_leave hr, ← answer_commandTaken, takeLeave]
  split
  · next h => exact absurd h hl
  · next h => exact absurd h hj
  · next h => exact absurd h hm
  all_goals rfl

end

/-- Settles O16, by the array state: a rest in CONFIGURED, a departure from JOINING or from MEMBER, or a refusal. -/
theorem leaveCommand : Obligations.LeaveCommand := by
  intro s hr harray hhold accepted
  obtain ⟨hconfig, hself, ⟨-, hobserving, -⟩, hmerge, hsample, -⟩ := harray
  refine ⟨fun hstate => ?listening, fun j hstate hj => ?joining, fun f hstate hf => ?member,
    fun hl hj hm => ?refused⟩
  case listening =>
    obtain ⟨hgate, -⟩ := hobserving hstate
    have hoff := selfHold_eq_false hhold (by rw [hgate]; rfl)
    have hrest := restInConfigured_listening (s := answered .leave .accepted s) hstate hself hoff
    refine ⟨_, exec_leave_listening hr hstate, ?_⟩
    rw [enterConfigured_listening (s := answered .leave .accepted s) hstate hmerge, hrest]
    exact ⟨rfl, congrArg Member.membership (withSelf_member_own .absent s), fun k => withSelf_member_peer .absent s⟩
  case joining =>
    obtain ⟨-, -, -, -, -, hpending, -⟩ := hself
    have hsolo := solo_eq_false hsample (by simp [hstate])
    have hown : (s.member s.ownId).membership ≠ .departing j j := by
      have hself := hpending hstate
      rw [hj] at hself
      simp [← Option.some.inj hself]
    refine ⟨_, exec_leave_joining hr hstate, ?_⟩
    rw [leaveJoining_eq (s := answered .leave .accepted s) hj, answered_acu]
    have h := departed_departAs { s.acu with
      state := .leaving, leaveScan := some j, joinScan := none, refusalPending := false } hsolo hown
    exact ⟨h.acu, h.own, h.peers, fun n => (h.eligible n).trans (departing_same_eligible j n), h.rosterItem, h.result,
      h.calibrating, h.aborted, h.table, h.mu, h.rcu, h.stuKept, h.stu,
      h.gate.trans (if_congr (by simp [ReleasesAs, departing_same_eligible]) rfl rfl)⟩
  case member =>
    have hsolo := solo_eq_false hsample (by simp [hstate])
    have hown : (s.member s.ownId).membership ≠ .departing f (leadScan s) := by simp [hf]
    refine ⟨_, exec_leave_member hr hstate, ?_⟩
    rw [leaveMember_eq (s := answered .leave .accepted s) hf, answered_acu]
    have h := departed_departAs { s.acu with state := .leaving, leaveScan := some (leadScan s) } hsolo hown
    exact ⟨h.acu, h.own, h.peers, fun hne n hn => (h.eligible n).trans (by simp [Membership.eligible, hne, hn]),
      h.rosterItem, h.result, h.calibrating, h.aborted, h.table, h.mu, h.rcu, h.stuKept, h.stu,
      h.gate.trans (if_congr (by rw [ReleasesAs, leaver_eligible hconfig f]) rfl rfl)⟩
  case refused => exact exec_leave_refused hr hl hj hm

end Sys2Proof.ArrayStates
